-- ==== Sys2Proof/Word.lean ====
section
/-! DEFINITION. The byte of the host link, the table type of the part's stores, and the clock's modulus. -/

namespace Sys2Proof

/-- A byte of the host link (R156). -/
abbrev Byte := BitVec 8

/-- The part's stores keyed by a cell id or a carrier slot: pairs of key and value, the keys strictly
rising. A key without an entry is an undefined position (R1) or an EMPTY slot (R19). -/
abbrev Table (α : Type) := List (Nat × α)

/-- The site time is a 32-bit count of milliseconds (R171). -/
def clockModulus : Nat := 4294967296

end Sys2Proof
end

