-- ==== Sys2Proof/Syntax.lean ====
section
/-! DEFINITION. The commands of the part: one constructor per row of spec/opcode_table.json. A request
carries its frame's tag and its payload bytes (R157, R165); a command of the line carries the bytes
that the line delivers with it (entry 6); an event of one carrier or one cell carries its slot or id. -/

namespace Sys2Proof

/-- The commands, in the order of spec/opcode_table.json. -/
inductive Instr where
  | describe (tag : Byte) (payload : List Byte)
  | readStatus (tag : Byte) (payload : List Byte)
  | setMode (tag : Byte) (payload : List Byte)
  | hold (tag : Byte) (payload : List Byte)
  | resume (tag : Byte) (payload : List Byte)
  | clearHoldCount (tag : Byte) (payload : List Byte)
  | resetArm (tag : Byte) (payload : List Byte)
  | resetExecute (tag : Byte) (payload : List Byte)
  | setParameter (tag : Byte) (payload : List Byte)
  | readParameter (tag : Byte) (payload : List Byte)
  | defineCell (tag : Byte) (payload : List Byte)
  | commitMap (tag : Byte) (payload : List Byte)
  | lockLayout (tag : Byte) (payload : List Byte)
  | amendCell (tag : Byte) (payload : List Byte)
  | readCell (tag : Byte) (payload : List Byte)
  | readMapState (tag : Byte) (payload : List Byte)
  | detectorReport (tag : Byte) (payload : List Byte)
  | declareClear (tag : Byte) (payload : List Byte)
  | enrol (tag : Byte) (payload : List Byte)
  | place (tag : Byte) (payload : List Byte)
  | setRoute (tag : Byte) (payload : List Byte)
  | extendRoute (tag : Byte) (payload : List Byte)
  | positionReport (tag : Byte) (payload : List Byte)
  | readCarrier (tag : Byte) (payload : List Byte)
  | retire (tag : Byte) (payload : List Byte)
  | readFaults (tag : Byte) (payload : List Byte)
  | clearFaults (tag : Byte) (payload : List Byte)
  | readGridlocks (tag : Byte) (payload : List Byte)
  | unknownKindRequest (tag kind : Byte) (payload : List Byte)
  | powerOnReset (rate1 rate0 : Bool)
  | pinReset
  | resetInputRelease
  | requestReset
  | startupEnd
  | goodFrameTaken (bytes : List Byte)
  | badCrcFrame (bytes : List Byte)
  | framingErrorByte (bytes : List Byte)
  | gapTimerExpiry
  | mapCheckEnd
  | reportTimerExpiry (slot : Nat)
  | waitLimit (slot : Nat)
  | promotion (slot : Nat)
  | filterTimerExpiry (cell : Nat)
  | absenceTimerExpiry (cell : Nat)
  | linkSupervisionExpiry
  | recoveryWindowExpiry
  | siteClockWrap
  | invalidLengthByte (bytes : List Byte)
  | powerFailure
  deriving DecidableEq, Repr

end Sys2Proof
end

