-- ==== Sys2Proof/Decode.lean ====
section
/-! DEFINITION. From the words of a frame to a command. The rows of spec/opcode_table.json give no
bits, so `decodeTableWord` answers none; the request that a taken frame spells is read by its tag and
kind (R160, R165). -/

namespace Sys2Proof

/-- The command that a word of the table's bits spells. No row of the table gives bits. -/
def decodeTableWord (_nbits _w : Nat) : Option Instr := none

/-- The request command that a frame taken from the receive queue is: the kinds are numbered from 0x01
in the order of R165; a tag of 0 or another kind is the row UNKNOWN_KIND_REQUEST (R160). -/
def decodeRequest (tag kind : Byte) (p : List Byte) : Instr :=
  if tag = 0 then .unknownKindRequest tag kind p else
  match kind.toNat with
  | 0x01 => .describe tag p
  | 0x02 => .readStatus tag p
  | 0x03 => .setMode tag p
  | 0x04 => .hold tag p
  | 0x05 => .resume tag p
  | 0x06 => .clearHoldCount tag p
  | 0x07 => .resetArm tag p
  | 0x08 => .resetExecute tag p
  | 0x09 => .setParameter tag p
  | 0x0A => .readParameter tag p
  | 0x0B => .defineCell tag p
  | 0x0C => .commitMap tag p
  | 0x0D => .lockLayout tag p
  | 0x0E => .amendCell tag p
  | 0x0F => .readCell tag p
  | 0x10 => .readMapState tag p
  | 0x11 => .detectorReport tag p
  | 0x12 => .declareClear tag p
  | 0x13 => .enrol tag p
  | 0x14 => .place tag p
  | 0x15 => .setRoute tag p
  | 0x16 => .extendRoute tag p
  | 0x17 => .positionReport tag p
  | 0x18 => .readCarrier tag p
  | 0x19 => .retire tag p
  | 0x1A => .readFaults tag p
  | 0x1B => .clearFaults tag p
  | 0x1C => .readGridlocks tag p
  | _ => .unknownKindRequest tag kind p

/-- Tag, kind and payload of the frame that carries a request command; none for the other commands. -/
def requestFrame : Instr → Option (Byte × Byte × List Byte)
  | .describe t p => some (t, 0x01, p)
  | .readStatus t p => some (t, 0x02, p)
  | .setMode t p => some (t, 0x03, p)
  | .hold t p => some (t, 0x04, p)
  | .resume t p => some (t, 0x05, p)
  | .clearHoldCount t p => some (t, 0x06, p)
  | .resetArm t p => some (t, 0x07, p)
  | .resetExecute t p => some (t, 0x08, p)
  | .setParameter t p => some (t, 0x09, p)
  | .readParameter t p => some (t, 0x0A, p)
  | .defineCell t p => some (t, 0x0B, p)
  | .commitMap t p => some (t, 0x0C, p)
  | .lockLayout t p => some (t, 0x0D, p)
  | .amendCell t p => some (t, 0x0E, p)
  | .readCell t p => some (t, 0x0F, p)
  | .readMapState t p => some (t, 0x10, p)
  | .detectorReport t p => some (t, 0x11, p)
  | .declareClear t p => some (t, 0x12, p)
  | .enrol t p => some (t, 0x13, p)
  | .place t p => some (t, 0x14, p)
  | .setRoute t p => some (t, 0x15, p)
  | .extendRoute t p => some (t, 0x16, p)
  | .positionReport t p => some (t, 0x17, p)
  | .readCarrier t p => some (t, 0x18, p)
  | .retire t p => some (t, 0x19, p)
  | .readFaults t p => some (t, 0x1A, p)
  | .clearFaults t p => some (t, 0x1B, p)
  | .readGridlocks t p => some (t, 0x1C, p)
  | .unknownKindRequest t k p => some (t, k, p)
  | _ => none

end Sys2Proof
end

