-- ==== Sys2Proof/Config.lean ====
section
/-! DEFINITION. The capacities fixed in the part (Introduction, Capacities), the fixed intervals of the
chapters, and the two values the manual leaves free. -/

namespace Sys2Proof.Config

/-- Cells, ids 0 to 383. -/
def cells : Nat := 384
/-- Carrier slots, 0 to 47. -/
def slots : Nat := 48
/-- Route list entries per carrier. -/
def routeEntries : Nat := 32
/-- Convoy limit of a lane. -/
def convoyLimit : Nat := 6
/-- Cells in one passage. -/
def passageCells : Nat := 8
/-- Passages in one waiting list. -/
def waitingPassages : Nat := 8
/-- Trail list entries per carrier. -/
def trailEntries : Nat := 6
/-- Gridlock records. -/
def gridlockRecords : Nat := 4
/-- Frames in the receive queue. -/
def rxFrames : Nat := 4

/-- STARTUP after a power-on reset, ms (R141). -/
def startupPowerOn : Nat := 40
/-- STARTUP after a pin or request reset, ms (R141). -/
def startupOther : Nat := 10
/-- The receive gap timer, ms (R158). -/
def gapTime : Nat := 5
/-- The latest end of a map check after Commit map, ms (R12). -/
def checkBound : Nat := 30

/-- FREE VALUE (entry 3): how long a map check would take, by the model's counter. R12 bounds it by
`checkBound` and says nothing else. -/
opaque checkDuration : Nat → Nat

/-- FREE VALUE (entry 2): which of several events due at the same site time is taken next, by the
model's counter and how many are left. The manual says only that the one taken first decides. -/
opaque eventChoice : Nat → Nat → Nat

end Sys2Proof.Config
end

