-- ==== Sys2Proof/Machine/State.lean ====
section
/-! DEFINITION. The state of the part: every register, list, counter, flag and pin that the manual gives
its ten blocks, as plain data, and the state right after power-on reset. -/

namespace Sys2Proof.Machine

/-! ## Why a step can stop -/

/-- Faults of the model. No command of this part stops the model: every row has an effect that the
manual gives. The type is empty, so no meaning can raise one (safe). -/
inductive Fault where
  deriving DecidableEq, Repr

/-- Refusals of the model. -/
inductive Refusal where
  /-- Raised by an arm of exec whose command has no meaning yet; no arm does (safe). -/
  | notModelled (mnemonic : String)
  deriving DecidableEq, Repr

/-! ## Map Store -/

/-- Cell kinds (R1). -/
inductive CellKind where
  | lane | crossing | bay | dock
  deriving DecidableEq, Repr

/-- Names of connection points: ends A and B, sides N, E, S and W (R2). -/
inductive Point where
  | a | b | n | e | s | w
  deriving DecidableEq, Repr

/-- Directions through a cell (R3). -/
inductive Direction where
  | aToB | bToA
  deriving DecidableEq, Repr

/-- The sense of a lane (R1). -/
inductive Sense where
  | aToB | bToA | both
  deriving DecidableEq, Repr

/-- A neighbour reference: the neighbour's id and its connection point (R2). -/
structure LinkRef where
  cell : Nat
  point : Point
  deriving DecidableEq, Repr

/-- The traffic properties that only a LANE has (R1). -/
structure LaneTraffic where
  sense : Sense
  keepClear : Bool
  convoy : Nat
  deriving DecidableEq, Repr

/-- The traffic properties of a cell, of which a record holds a defined and a live copy (R1). -/
structure Traffic where
  closed : Bool
  speedLimit : Nat
  lane : Option LaneTraffic
  deriving DecidableEq, Repr

/-- A pending amendment: a partial record of five fields (R118, R120). -/
structure Amendment where
  closed : Option Bool
  sense : Option Sense
  speedLimit : Option Nat
  keepClear : Option Bool
  convoy : Option Nat
  deriving DecidableEq, Repr

/-- The state of the map (R9). -/
inductive MapState where
  | empty | draft | checking | valid | invalid
  deriving DecidableEq, Repr

/-- Reasons of the map check (R11). -/
inductive MapReason where
  | undefinedNeighbour | notReciprocal | selfLink | tooFewLinks | convoyOverLength | dockNotDeadEnd
  deriving DecidableEq, Repr

/-- The first-error record (R9, R11). -/
structure MapError where
  cell : Nat
  reason : MapReason
  point : Option Point
  deriving DecidableEq, Repr

/-! ## Timers -/

/-- A running timer, kept as its start time and its period in ms (R171). -/
structure Timer where
  start : Nat
  period : Nat
  deriving DecidableEq, Repr

/-! ## Detector Filter -/

/-- Detector levels (R105). -/
inductive Level where
  | unknown | occ | empty
  deriving DecidableEq, Repr

/-- The absence timer of a cell (R114). -/
inductive Absence where
  | idle
  | running (t : Timer)
  | spent
  deriving DecidableEq, Repr

/-- The record of one defined cell: its definition (R1), live values and pending amendment (Map Store),
holder list, direction lock and waiting list (Passage Arbiter), detector fields (Detector Filter, R105)
and INTRUSION record (Supervision Unit, R86). -/
structure Cell where
  kind : CellKind
  length : Nat
  /-- The connection points that hold a link, in the order A, B or N, E, S, W. -/
  links : List (Point × LinkRef)
  defined : Traffic
  detector : Bool
  live : Traffic
  amendment : Option Amendment
  holders : List Nat
  lock : Option Direction
  /-- The waiting list, each passage by its carrier's slot (R48: at most one per carrier). -/
  waiting : List Nat
  raw : Level
  filtered : Level
  filterTimer : Option Timer
  absence : Absence
  confirmed : Bool
  sweepPending : Bool
  /-- The INTRUSION record: clear, or latched at a site time. -/
  intrusion : Option Nat
  deriving DecidableEq, Repr

/-! ## Carrier Table -/

/-- States of a carrier record; EMPTY is a slot without a record (R19). -/
inductive CarrierState where
  | enrolled | active | halted | lost
  deriving DecidableEq, Repr

/-- The halted cause (R19). -/
inductive HaltedCause where
  | none | fault | hold | lapse
  deriving DecidableEq, Repr

/-- A carrier's profile (R19, R21). -/
structure Profile where
  length : Nat
  maxSpeed : Nat
  decel : Nat
  priority : Nat
  deriving DecidableEq, Repr

/-- A cell with the entry point by which a carrier enters it: an entry of a route, trail or passage. -/
structure Entry where
  cell : Nat
  entry : Point
  deriving DecidableEq, Repr

/-- A position: a cell and an offset from the carrier's entry point in it. -/
structure Pos where
  cell : Nat
  offset : Nat
  deriving DecidableEq, Repr

/-- The last report (R19). -/
structure LastReport where
  cell : Nat
  offset : Nat
  speed : Nat
  standstill : Bool
  time : Nat
  deriving DecidableEq, Repr

/-- The fields of a placed carrier (R19, R24). Route entry 0 is the head cell (R26): the route list is
`head :: ahead`. -/
structure Placement where
  head : Entry
  offset : Nat
  last : LastReport
  ahead : List Entry
  dest : Option Nat
  granted : Nat
  trail : List Entry
  reach : Pos
  deriving DecidableEq, Repr

/-- A waiting passage (R48), with the periods of its two expiries (R57, R171). -/
structure Passage where
  index : Nat
  cells : List Entry
  seq : Nat
  basePriority : Nat
  priority : Nat
  queued : Nat
  waitPeriod : Nat
  /-- The period of the promotion; none when promote_time was 0 or the promotion has been taken. -/
  promotePeriod : Option Nat
  deriving DecidableEq, Repr

/-- What a latched carrier fault records; the constructor is its kind (R85). -/
inductive FaultDetail where
  | lapse (lastReport : Nat)
  | overspeed (speed delivered : Nat)
  | overrun (cell offset : Nat) (reach : Option Pos)
  | regress (cell offset : Nat)
  | jump (cell offset : Nat) (advance : Option (Nat × Nat))
  | mismatch (cell : Nat)
  deriving DecidableEq, Repr

/-- A latched carrier fault record (R86). -/
structure FaultRecord where
  time : Nat
  detail : FaultDetail
  reportSince : Bool
  deriving DecidableEq, Repr

/-- The record of one carrier (R19). An ENROLLED carrier has no placement. -/
structure Carrier where
  state : CarrierState
  profile : Profile
  place : Option Placement
  ceiling : Nat
  delivered : Nat
  stalled : Bool
  routeBroken : Bool
  queueRefused : Bool
  haltedCause : HaltedCause
  reportTimer : Option Timer
  passage : Option Passage
  /-- The latched fault records, keyed by the number of their kind in the order of the R85 table. -/
  faults : Table FaultRecord
  deriving DecidableEq, Repr

/-! ## Gridlock Monitor -/

/-- The kind of wait of a gridlock link (R131). -/
inductive WaitKind where
  | holds | ahead
  deriving DecidableEq, Repr

/-- A link of a gridlock record (R131). -/
structure GridLink where
  cell : Nat
  wait : WaitKind
  deriving DecidableEq, Repr

/-- A gridlock record (R131). -/
structure GridRecord where
  members : List Nat
  links : List GridLink
  time : Nat
  deriving DecidableEq, Repr

/-- What the blocks of the floor keep: Map Store, Passage Arbiter, Carrier Table, Supervision Unit,
Detector Filter and Gridlock Monitor. -/
structure Floor where
  mapState : MapState
  firstError : Option MapError
  layoutLock : Bool
  mapCheck : Option Timer
  cells : Table Cell
  carriers : Table Carrier
  queueSeq : Nat
  gridlocks : List GridRecord
  gridOverflow : Bool
  deriving DecidableEq, Repr

/-! ## Mode Controller -/

/-- Operating modes (R137). -/
inductive Mode where
  | startup | config | service | commission | hold | lockdown
  deriving DecidableEq, Repr

/-- The previous mode (R137). -/
inductive PrevMode where
  | none | service | commission
  deriving DecidableEq, Repr

/-- The set of hold causes (R137). -/
structure HoldCauses where
  link : Bool
  fault : Bool
  request : Bool
  deriving DecidableEq, Repr

/-- The lockdown cause (R137). -/
inductive LockdownCause where
  | none | count | window
  deriving DecidableEq, Repr

/-- The link supervision timer (R146). -/
inductive LinkTimer where
  | stopped
  | running (t : Timer)
  | lapsed
  deriving DecidableEq, Repr

/-- The reset cause (R137). -/
inductive ResetCause where
  | powerOn | pin | request
  deriving DecidableEq, Repr

/-- What the Mode Controller keeps beside the parameter store (R137). -/
structure ModeController where
  mode : Mode
  previous : PrevMode
  causes : HoldCauses
  lockdownCause : LockdownCause
  holdCount : Nat
  recovery : Option Timer
  linkTimer : LinkTimer
  /-- The HALT line: asserted. -/
  halt : Bool
  resetCause : ResetCause
  deriving DecidableEq, Repr

/-- Fault actions (R85). -/
inductive Action where
  | note | haltOne | haltAll
  deriving DecidableEq, Repr

/-- The parameter store (R167). -/
structure Params where
  linkTimeout : Nat
  reportTimeout : Nat
  filterTime : Nat
  absenceTime : Nat
  recoveryWindow : Nat
  holdLimit : Nat
  stopGap : Nat
  releaseMargin : Nat
  followGap : Nat
  reactionMargin : Nat
  speedTolerance : Nat
  overrunTolerance : Nat
  jitterTolerance : Nat
  jumpAllowance : Nat
  commissionSpeed : Nat
  waitLimit : Nat
  promoteTime : Nat
  lapse : Action
  overspeed : Action
  overrun : Action
  regress : Action
  jump : Action
  mismatch : Action
  intrusion : Action
  gridlock : Action
  enableFault : Bool
  enableMode : Bool
  enableGridlock : Bool
  enableRoute : Bool
  deriving DecidableEq, Repr

/-! ## Link Interface -/

/-- A complete frame of the receive queue, with the armed mark of a Reset execute (R159, R164). -/
structure Frame where
  tag : Byte
  kind : Byte
  payload : List Byte
  armed : Bool
  deriving DecidableEq, Repr

/-- A byte taken from the line, and whether it came in STARTUP (R141). -/
structure RxByte where
  val : Byte
  early : Bool
  deriving DecidableEq, Repr

/-- States of the receiver (R158). -/
inductive RxPhase where
  | hunt | length | body | check
  deriving DecidableEq, Repr

/-- The receiver: its state, whether the start byte of the frame came in STARTUP, and the bytes held
after the start byte (R158). -/
structure Receiver where
  phase : RxPhase
  startEarly : Bool
  held : List RxByte
  deriving DecidableEq, Repr

/-- The armed flag and the withheld mark of a notice class (R163). -/
structure NoticeClass where
  armed : Bool
  withheld : Bool
  deriving DecidableEq, Repr

/-- The four notice classes (R163). -/
structure NoticeClasses where
  fault : NoticeClass
  mode : NoticeClass
  gridlock : NoticeClass
  route : NoticeClass
  deriving DecidableEq, Repr

/-- A frame on its way to the host: tag, kind and payload (R157), and whether it is the reply to an
accepted Reset execute (R164). -/
structure OutFrame where
  tag : Byte
  kind : Byte
  payload : List Byte
  execReply : Bool
  deriving DecidableEq, Repr

/-- Line rates (R156). -/
inductive LineRate where
  | r115200 | r230400 | r460800 | r921600
  deriving DecidableEq, Repr

/-- What the Link Interface keeps (R156 to R164). -/
structure LinkInterface where
  rate : LineRate
  receiver : Receiver
  gapTimer : Option Timer
  rxQueue : List Frame
  resetArm : Bool
  rxOverflow : Bool
  classes : NoticeClasses
  /-- The frame in transmission and the tenths of a bit left to send of it (entry 9). -/
  sending : Option (OutFrame × Nat)
  txQueue : List OutFrame
  /-- The reply to an accepted Reset execute has been sent and its reset is to be taken. -/
  resetDue : Bool
  deriving DecidableEq, Repr

/-- The supply, the reset input and the Site Clock (R140, R156, R171). -/
structure Clock where
  powered : Bool
  resetHeld : Bool
  siteTime : Nat
  deriving DecidableEq, Repr

/-- The state of the part. -/
structure State where
  /-- The commands waiting, first in first out. -/
  pending : List Instr
  /-- The model's counter for its free values. -/
  free : Nat
  clock : Clock
  floor : Floor
  ctl : ModeController
  params : Params
  link : LinkInterface
  deriving DecidableEq, Repr

/-! ## The state after power-on reset -/

/-- The parameter defaults (R167, R85). -/
def defaultParams : Params where
  linkTimeout := 1000
  reportTimeout := 300
  filterTime := 200
  absenceTime := 1000
  recoveryWindow := 60
  holdLimit := 4
  stopGap := 300
  releaseMargin := 100
  followGap := 500
  reactionMargin := 250
  speedTolerance := 100
  overrunTolerance := 50
  jitterTolerance := 50
  jumpAllowance := 500
  commissionSpeed := 300
  waitLimit := 120
  promoteTime := 0
  lapse := .haltOne
  overspeed := .haltOne
  overrun := .haltAll
  regress := .note
  jump := .haltOne
  mismatch := .haltOne
  intrusion := .note
  gridlock := .note
  enableFault := true
  enableMode := true
  enableGridlock := true
  enableRoute := true

/-- The floor after power-on: no cell defined, every slot EMPTY, every list empty (R13, R19, R66, R131). -/
def emptyFloor : Floor where
  mapState := .empty
  firstError := none
  layoutLock := false
  mapCheck := none
  cells := []
  carriers := []
  queueSeq := 0
  gridlocks := []
  gridOverflow := false

/-- The Mode Controller after power-on reset (R137). -/
def powerOnCtl : ModeController where
  mode := .startup
  previous := .none
  causes := ⟨false, false, false⟩
  lockdownCause := .none
  holdCount := 0
  recovery := none
  linkTimer := .stopped
  halt := true
  resetCause := .powerOn

/-- The Link Interface after a reset with a given line rate (R158, R159, R163, R164). -/
def idleLink (r : LineRate) : LinkInterface where
  rate := r
  receiver := ⟨.hunt, false, []⟩
  gapTimer := none
  rxQueue := []
  resetArm := false
  rxOverflow := false
  classes := ⟨⟨true, false⟩, ⟨true, false⟩, ⟨true, false⟩, ⟨true, false⟩⟩
  sending := none
  txQueue := []
  resetDue := false

/-- The part right after power-on reset, with both rate straps low (DESIGN CHOICE, entry 11). -/
def State.reset : State where
  pending := []
  free := 0
  clock := ⟨true, false, 0⟩
  floor := emptyFloor
  ctl := powerOnCtl
  params := defaultParams
  link := idleLink .r115200

end Sys2Proof.Machine
end

