-- ==== Sys2Proof/Machine/Table.lean ====
section
/-! DEFINITION. Operations on the part's keyed stores, on sets of slots and ids kept as rising lists, on
timers (R171), and the integer square root and rounded-up quotient of the Introduction. -/

namespace Sys2Proof.Machine

/-! ## Tables -/

/-- The entry of a key. -/
def tget {α : Type} : Table α → Nat → Option α
  | [], _ => none
  | (j, v) :: r, k => if j = k then some v else tget r k

/-- The table with a key's entry set. -/
def tset {α : Type} : Table α → Nat → α → Table α
  | [], k, v => [(k, v)]
  | (j, w) :: r, k, v =>
    if k < j then (k, v) :: (j, w) :: r
    else if k = j then (k, v) :: r
    else (j, w) :: tset r k v

/-- The table with a key's entry removed. -/
def tdel {α : Type} (t : Table α) (k : Nat) : Table α := t.filter fun e => e.1 != k

/-- The table with a function applied to a key's entry, where there is one. -/
def tmod {α : Type} (t : Table α) (k : Nat) (f : α → α) : Table α :=
  t.map fun e => if e.1 = k then (e.1, f e.2) else e

/-- The table with a function applied to every entry. -/
def tmap {α : Type} (t : Table α) (f : Nat → α → α) : Table α := t.map fun e => (e.1, f e.1 e.2)

/-- The canonical form: keys strictly rising, all below a bound. -/
def tableWf {α : Type} (bound : Nat) (t : Table α) : Bool :=
  (t.map Prod.fst).Pairwise (· < ·) ∧ t.all fun e => e.1 < bound

/-! ## Sets of numbers as rising lists -/

/-- Insertion into a rising list without repeats. -/
def insertNum (n : Nat) : List Nat → List Nat
  | [] => [n]
  | m :: r => if n < m then n :: m :: r else if n = m then m :: r else m :: insertNum n r

/-- The rising list of the members of a list. -/
def sortNum (l : List Nat) : List Nat := l.foldr insertNum []

/-! ## Timers -/

/-- Time from a start to now, modulo 2^32 (R171). -/
def elapsed (now start : Nat) : Nat := (now + clockModulus - start % clockModulus) % clockModulus

/-- A timer expires when its elapsed time reaches its period (R171). -/
def Timer.due (t : Timer) (now : Nat) : Bool := t.period ≤ elapsed now t.start

/-- Milliseconds until expiry (R40, R155). -/
def Timer.left (t : Timer) (now : Nat) : Nat := t.period - elapsed now t.start

/-- Whether a timer is running and has reached its period. -/
def timerDue (t : Option Timer) (now : Nat) : Bool :=
  match t with
  | none => false
  | some t => t.due now

/-! ## Integer arithmetic -/

/-- The bits of a square root, from bit `k - 1` down. -/
def isqrtGo (n : Nat) : Nat → Nat → Nat
  | 0, r => r
  | k + 1, r => isqrtGo n k (if (r + 2 ^ k) * (r + 2 ^ k) ≤ n then r + 2 ^ k else r)

/-- isqrt: the largest integer whose square does not exceed the value (Introduction). -/
def isqrt (n : Nat) : Nat := isqrtGo n (n.log2 / 2 + 1) 0

/-- ceildiv: the quotient rounded up (Introduction). -/
def ceildiv (a b : Nat) : Nat := (a + b - 1) / b

/-- The least of a list of terms and a first one. -/
def least (d : Nat) (l : List Nat) : Nat := l.foldl min d

/-- The entry that stands immediately before a slot in a list. -/
def beforeIn : List Nat → Nat → Option Nat
  | a :: b :: r, x => if b = x then some a else beforeIn (b :: r) x
  | _, _ => none

/-- The entry that stands immediately after a slot in a list. -/
def afterIn : List Nat → Nat → Option Nat
  | a :: b :: r, x => if a = x then some b else afterIn (b :: r) x
  | _, _ => none

/-- Index of a cell in a list of entries. -/
def indexOfCell : List Entry → Nat → Option Nat
  | [], _ => none
  | e :: r, c => if e.cell = c then some 0 else (indexOfCell r c).map (· + 1)

end Sys2Proof.Machine
end

