-- ==== Sys2Proof/Machine/Operands.lean ====
section
/-! DEFINITION. The operand forms of the requests: how the payload of each request is read into its
fields (R165, R166) and how fields are written as a payload. A payload whose length is not what its
fields call for reads as none, which is BAD_LENGTH. Values are not judged here: a field out of range is
read as it stands and judged by the rule that owns the request. -/

namespace Sys2Proof.Machine

/-! ## Fields -/

/-- A number as bytes, most significant first (R157). -/
def beBytes : Nat → Nat → List Byte
  | 0, _ => []
  | w + 1, v => BitVec.ofNat 8 (v / 256 ^ w) :: beBytes w v

/-- A one-byte field. -/
def u1 : List Byte → Option (Nat × List Byte)
  | a :: r => some (a.toNat, r)
  | _ => none

/-- A two-byte field, most significant byte first. -/
def u2 : List Byte → Option (Nat × List Byte)
  | a :: b :: r => some (a.toNat * 256 + b.toNat, r)
  | _ => none

/-- A four-byte field, most significant byte first. -/
def u4 : List Byte → Option (Nat × List Byte)
  | a :: b :: c :: d :: r => some (((a.toNat * 256 + b.toNat) * 256 + c.toNat) * 256 + d.toNat, r)
  | _ => none

/-- A field that may be absent: a presence byte, 0 or 1, then the field when present (R165). Another presence byte
calls for no length, and the payload is BAD_LENGTH (entry 29). -/
def uOpt {α : Type} (u : List Byte → Option (α × List Byte)) : List Byte → Option (Option α × List Byte)
  | a :: r =>
    if a.toNat = 0 then some (none, r)
    else if a.toNat = 1 then (u r).map fun x => (some x.1, x.2)
    else none
  | _ => none

/-- A given number of two-byte fields. -/
def uCells : Nat → List Byte → Option (List Nat × List Byte)
  | 0, r => some ([], r)
  | n + 1, r => do
    let (c, r) ← u2 r
    let (cs, r) ← uCells n r
    return (c :: cs, r)

/-- A payload ends with its last field (R165). -/
def atEnd {α : Type} (x : α) : List Byte → Option α
  | [] => some x
  | _ => none

/-- The presence byte and bytes of an optional field. -/
def optBytes (w : Nat) : Option Nat → List Byte
  | none => beBytes 1 0
  | some v => beBytes 1 1 ++ beBytes w v

/-! ## Enumerations, numbered from 0 in the order their rules list them (R165, entry 12) -/

/-- Cell kinds in the order of R1. -/
def kindOfNum : Nat → Option CellKind
  | 0 => some .lane
  | 1 => some .crossing
  | 2 => some .bay
  | 3 => some .dock
  | _ => none

/-- The number of a cell kind. -/
def CellKind.num : CellKind → Nat
  | .lane => 0
  | .crossing => 1
  | .bay => 2
  | .dock => 3

/-- Point names in the order of R2. -/
def pointOfNum : Nat → Option Point
  | 0 => some .a
  | 1 => some .b
  | 2 => some .n
  | 3 => some .e
  | 4 => some .s
  | 5 => some .w
  | _ => none

/-- The number of a point name. -/
def Point.num : Point → Nat
  | .a => 0
  | .b => 1
  | .n => 2
  | .e => 3
  | .s => 4
  | .w => 5

/-- Senses in the order of R1. -/
def senseOfNum : Nat → Option Sense
  | 0 => some .aToB
  | 1 => some .bToA
  | 2 => some .both
  | _ => none

/-- The number of a sense. -/
def Sense.num : Sense → Nat
  | .aToB => 0
  | .bToA => 1
  | .both => 2

/-- Directions in the order of R23. -/
def directionOfNum : Nat → Option Direction
  | 0 => some .aToB
  | 1 => some .bToA
  | _ => none

/-- The number of a direction. -/
def Direction.num : Direction → Nat
  | .aToB => 0
  | .bToA => 1

/-- A yes or no field, a flag set or clear. That yes, or set, is 1 and no, or clear, is 0 is the model's choice
(entry 12); the checks of R7 and R119 take the same two numbers. -/
def boolOfNum : Nat → Option Bool
  | 0 => some false
  | 1 => some true
  | _ => none

/-- The number of a yes or no, a set or clear: 1 or 0, the model's choice (entry 12). -/
def boolNum (b : Bool) : Nat := if b then 1 else 0

/-- Levels in the order of R105. -/
def levelOfNum : Nat → Option Level
  | 0 => some .unknown
  | 1 => some .occ
  | 2 => some .empty
  | _ => none

/-- The number of a level. -/
def Level.num : Level → Nat
  | .unknown => 0
  | .occ => 1
  | .empty => 2

/-- Target modes of Set mode in the order of R142. -/
def targetOfNum : Nat → Option Mode
  | 0 => some .config
  | 1 => some .service
  | 2 => some .commission
  | _ => none

/-! ## The requests' fields -/

/-- Set parameter (R168): identifier, value. -/
structure SetParameterFields where
  id : Nat
  value : Nat
  deriving DecidableEq, Repr

/-- A connection point's neighbour reference as sent: neighbour id and point name. -/
structure LinkField where
  cell : Nat
  point : Nat
  deriving DecidableEq, Repr

/-- Define cell (R6): the cell record of R1, with the links as a list of four connection points
(entry 13). -/
structure DefineCellFields where
  id : Nat
  kind : Nat
  length : Nat
  links : List (Option LinkField)
  sense : Option Nat
  convoy : Option Nat
  speedLimit : Option Nat
  keepClear : Option Nat
  detector : Option Nat
  closed : Option Nat
  deriving DecidableEq, Repr

/-- Amend cell (R118): cell id and five optional fields. -/
structure AmendCellFields where
  id : Nat
  closed : Option Nat
  sense : Option Nat
  speedLimit : Option Nat
  keepClear : Option Nat
  convoy : Option Nat
  deriving DecidableEq, Repr

/-- Detector report (R106): cell id, level. -/
structure DetectorReportFields where
  id : Nat
  level : Nat
  deriving DecidableEq, Repr

/-- Enrol (R20): slot, length, max speed, deceleration, priority. -/
structure EnrolFields where
  slot : Nat
  length : Nat
  maxSpeed : Nat
  decel : Nat
  priority : Nat
  deriving DecidableEq, Repr

/-- Place (R23): slot, cell id, direction, head offset. -/
structure PlaceFields where
  slot : Nat
  cell : Nat
  direction : Nat
  offset : Nat
  deriving DecidableEq, Repr

/-- Set route (R28): slot, list of cell ids, destination offset. -/
structure SetRouteFields where
  slot : Nat
  cells : List Nat
  dest : Nat
  deriving DecidableEq, Repr

/-- Extend route (R29): slot, list of cell ids, optional destination offset. -/
structure ExtendRouteFields where
  slot : Nat
  cells : List Nat
  dest : Option Nat
  deriving DecidableEq, Repr

/-- Position report (R166). -/
structure PositionFields where
  slot : Nat
  cell : Nat
  offset : Nat
  speed : Nat
  standstill : Bool
  deriving DecidableEq, Repr

/-- Clear faults (R100): one carrier slot, one cell id, or all. -/
inductive ClearTarget where
  | slot (n : Nat)
  | cell (n : Nat)
  | all
  deriving DecidableEq, Repr

/-! ## Reading payloads -/

/-- A request without fields: its payload is empty. -/
def parseNone (p : List Byte) : Option Unit := atEnd () p

/-- A request of one one-byte field: a slot, a target mode, an identifier. -/
def parseByte (p : List Byte) : Option Nat := do
  let (v, p) ← u1 p
  atEnd v p

/-- A request of one cell id. -/
def parseCellId (p : List Byte) : Option Nat := do
  let (v, p) ← u2 p
  atEnd v p

/-- Set parameter (R168); the parameter identifier is one byte (entry 12). -/
def parseSetParameter (p : List Byte) : Option SetParameterFields := do
  let (id, p) ← u1 p
  let (value, p) ← u4 p
  atEnd ⟨id, value⟩ p

/-- A neighbour reference: cell id and point name. -/
def uLink (p : List Byte) : Option (LinkField × List Byte) := do
  let (c, p) ← u2 p
  let (q, p) ← u1 p
  return (⟨c, q⟩, p)

/-- Define cell (R6). The list of connection points has its count, which is four (entry 13). -/
def parseDefineCell (p : List Byte) : Option DefineCellFields := do
  let (id, p) ← u2 p
  let (kind, p) ← u1 p
  let (length, p) ← u2 p
  let (count, p) ← u1 p
  if count ≠ 4 then none else
  let (l0, p) ← uOpt uLink p
  let (l1, p) ← uOpt uLink p
  let (l2, p) ← uOpt uLink p
  let (l3, p) ← uOpt uLink p
  let (sense, p) ← uOpt u1 p
  let (convoy, p) ← uOpt u2 p
  let (speedLimit, p) ← uOpt u2 p
  let (keepClear, p) ← uOpt u1 p
  let (detector, p) ← uOpt u1 p
  let (closed, p) ← uOpt u1 p
  atEnd ⟨id, kind, length, [l0, l1, l2, l3], sense, convoy, speedLimit, keepClear, detector, closed⟩ p

/-- Amend cell (R118). -/
def parseAmendCell (p : List Byte) : Option AmendCellFields := do
  let (id, p) ← u2 p
  let (closed, p) ← uOpt u1 p
  let (sense, p) ← uOpt u1 p
  let (speedLimit, p) ← uOpt u2 p
  let (keepClear, p) ← uOpt u1 p
  let (convoy, p) ← uOpt u2 p
  atEnd ⟨id, closed, sense, speedLimit, keepClear, convoy⟩ p

/-- Detector report (R106). -/
def parseDetectorReport (p : List Byte) : Option DetectorReportFields := do
  let (id, p) ← u2 p
  let (level, p) ← u1 p
  atEnd ⟨id, level⟩ p

/-- Enrol (R20). -/
def parseEnrol (p : List Byte) : Option EnrolFields := do
  let (slot, p) ← u1 p
  let (length, p) ← u2 p
  let (maxSpeed, p) ← u2 p
  let (decel, p) ← u2 p
  let (priority, p) ← u1 p
  atEnd ⟨slot, length, maxSpeed, decel, priority⟩ p

/-- Place (R23). -/
def parsePlace (p : List Byte) : Option PlaceFields := do
  let (slot, p) ← u1 p
  let (cell, p) ← u2 p
  let (direction, p) ← u1 p
  let (offset, p) ← u2 p
  atEnd ⟨slot, cell, direction, offset⟩ p

/-- Set route (R28): the length is checked against the count carried (R165); a list of no entries is
BAD_LENGTH. -/
def parseSetRoute (p : List Byte) : Option SetRouteFields := do
  let (slot, p) ← u1 p
  let (n, p) ← u1 p
  if n = 0 then none else
  let (cells, p) ← uCells n p
  let (dest, p) ← u2 p
  atEnd ⟨slot, cells, dest⟩ p

/-- Extend route (R29): 1 to 31 cell ids. -/
def parseExtendRoute (p : List Byte) : Option ExtendRouteFields := do
  let (slot, p) ← u1 p
  let (n, p) ← u1 p
  if n = 0 ∨ 31 < n then none else
  let (cells, p) ← uCells n p
  let (dest, p) ← uOpt u2 p
  atEnd ⟨slot, cells, dest⟩ p

/-- Position report (R166): 8 bytes; bits 7..1 of the flags are ignored. -/
def parsePosition (p : List Byte) : Option PositionFields := do
  let (slot, p) ← u1 p
  let (cell, p) ← u2 p
  let (offset, p) ← u2 p
  let (speed, p) ← u2 p
  let (flags, p) ← u1 p
  atEnd ⟨slot, cell, offset, speed, flags % 2 == 1⟩ p

/-- Clear faults (R100): 0 and a slot, 1 and a cell id, or 2 for all (entry 14). -/
def parseClearTarget (p : List Byte) : Option ClearTarget := do
  let (k, p) ← u1 p
  match k with
  | 0 => do
    let (n, p) ← u1 p
    atEnd (.slot n) p
  | 1 => do
    let (n, p) ← u2 p
    atEnd (.cell n) p
  | 2 => atEnd .all p
  | _ => none

/-! ## Writing payloads -/

/-- Set parameter's payload. -/
def SetParameterFields.bytes (f : SetParameterFields) : List Byte := beBytes 1 f.id ++ beBytes 4 f.value

/-- A connection point's bytes. -/
def linkFieldBytes : Option LinkField → List Byte
  | none => beBytes 1 0
  | some l => beBytes 1 1 ++ beBytes 2 l.cell ++ beBytes 1 l.point

/-- Define cell's payload. -/
def DefineCellFields.bytes (f : DefineCellFields) : List Byte :=
  beBytes 2 f.id ++ beBytes 1 f.kind ++ beBytes 2 f.length ++ beBytes 1 f.links.length
    ++ f.links.flatMap linkFieldBytes ++ optBytes 1 f.sense ++ optBytes 2 f.convoy
    ++ optBytes 2 f.speedLimit ++ optBytes 1 f.keepClear ++ optBytes 1 f.detector ++ optBytes 1 f.closed

/-- Amend cell's payload. -/
def AmendCellFields.bytes (f : AmendCellFields) : List Byte :=
  beBytes 2 f.id ++ optBytes 1 f.closed ++ optBytes 1 f.sense ++ optBytes 2 f.speedLimit
    ++ optBytes 1 f.keepClear ++ optBytes 2 f.convoy

/-- Detector report's payload. -/
def DetectorReportFields.bytes (f : DetectorReportFields) : List Byte := beBytes 2 f.id ++ beBytes 1 f.level

/-- Enrol's payload. -/
def EnrolFields.bytes (f : EnrolFields) : List Byte :=
  beBytes 1 f.slot ++ beBytes 2 f.length ++ beBytes 2 f.maxSpeed ++ beBytes 2 f.decel ++ beBytes 1 f.priority

/-- Place's payload. -/
def PlaceFields.bytes (f : PlaceFields) : List Byte :=
  beBytes 1 f.slot ++ beBytes 2 f.cell ++ beBytes 1 f.direction ++ beBytes 2 f.offset

/-- Set route's payload. -/
def SetRouteFields.bytes (f : SetRouteFields) : List Byte :=
  beBytes 1 f.slot ++ beBytes 1 f.cells.length ++ f.cells.flatMap (beBytes 2) ++ beBytes 2 f.dest

/-- Extend route's payload. -/
def ExtendRouteFields.bytes (f : ExtendRouteFields) : List Byte :=
  beBytes 1 f.slot ++ beBytes 1 f.cells.length ++ f.cells.flatMap (beBytes 2) ++ optBytes 2 f.dest

/-- Position report's payload. -/
def PositionFields.bytes (f : PositionFields) : List Byte :=
  beBytes 1 f.slot ++ beBytes 2 f.cell ++ beBytes 2 f.offset ++ beBytes 2 f.speed
    ++ beBytes 1 (boolNum f.standstill)

/-- Clear faults' payload. -/
def ClearTarget.bytes : ClearTarget → List Byte
  | .slot n => beBytes 1 0 ++ beBytes 1 n
  | .cell n => beBytes 1 1 ++ beBytes 2 n
  | .all => beBytes 1 2

end Sys2Proof.Machine
end

