-- ==== Sys2Proof/Machine/Codec.lean ====
section
/-! DEFINITION. The line and its frames: the CRC and the frame layout (R157), the receiver with its
rescan (R158), and the content of replies with the truncation of R165. -/

namespace Sys2Proof.Machine

/-! ## CRC and frames -/

/-- One bit of the CRC register: shift left, with the generator x^16 + x^12 + x^5 + 1 (R157). -/
def crcShift (r : BitVec 16) : BitVec 16 := if r.msb then (r <<< 1) ^^^ 0x1021#16 else r <<< 1

/-- One byte into the CRC register, most significant bit first, not reflected. -/
def crcByte (r : BitVec 16) (b : Byte) : BitVec 16 :=
  let x := r ^^^ (b.zeroExtend 16 <<< 8)
  crcShift (crcShift (crcShift (crcShift (crcShift (crcShift (crcShift (crcShift x)))))))

/-- The CRC of a run of bytes: the register starts at 0xFFFF; no final inversion (R157). -/
def crc16 (bytes : List Byte) : BitVec 16 := bytes.foldl crcByte 0xFFFF#16

/-- The bytes of a frame from its length to its last payload byte (R157). -/
def frameBody (tag kind : Byte) (payload : List Byte) : List Byte :=
  BitVec.ofNat 8 (payload.length + 2) :: tag :: kind :: payload

/-- The two CRC bytes, high byte first. -/
def crcBytes (body : List Byte) : List Byte :=
  [(crc16 body).extractLsb' 8 8, (crc16 body).extractLsb' 0 8]

/-- The whole frame: start byte 0xC3, length, tag, kind, payload, CRC (R157). -/
def frameBytes (tag kind : Byte) (payload : List Byte) : List Byte :=
  0xC3#8 :: (frameBody tag kind payload ++ crcBytes (frameBody tag kind payload))

/-- A frame of N + 4 bytes at ten bits a byte, in tenths of a bit (R156, R157). -/
def frameTenths (f : OutFrame) : Nat := (f.payload.length + 6) * 100

/-- Tenths of a bit that the line carries in a millisecond at each rate (R156). -/
def LineRate.tenths : LineRate → Nat
  | .r115200 => 1152
  | .r230400 => 2304
  | .r460800 => 4608
  | .r921600 => 9216

/-- The rate that the straps RATE1 and RATE0 choose (R156). -/
def rateOf (rate1 rate0 : Bool) : LineRate :=
  match rate1, rate0 with
  | false, false => .r115200
  | false, true => .r230400
  | true, false => .r460800
  | true, true => .r921600

/-! ## The receiver -/

/-- The receiver in HUNT. -/
def rxHunt : Receiver := ⟨.hunt, false, []⟩

/-- A frame that the receiver has completed with a good CRC, and whether its start byte came in
STARTUP (R141). -/
structure RxFrame where
  frame : Frame
  early : Bool
  deriving DecidableEq, Repr

/-- The CRC check of the bytes held from the length through the second CRC byte (R157). -/
def heldGood (held : List RxByte) : Bool :=
  let bytes := held.map (·.val)
  let n := bytes.length - 2
  bytes.drop n == crcBytes (bytes.take n)

/-- The frame of the held bytes: length, tag, kind, payload, CRC. -/
def heldFrame (held : List RxByte) : Frame :=
  match held.map (·.val) with
  | _ :: tag :: kind :: rest => ⟨tag, kind, rest.take (rest.length - 2), false⟩
  | _ => ⟨0, 0, [], false⟩

/-- N of the frame being received: its first held byte. -/
def heldLength (held : List RxByte) : Nat :=
  match held with
  | [] => 0
  | b :: _ => b.val.toNat

/-- One byte passed to the receiver (R158): the new receiver and the frames completed. A bad CRC passes
the held bytes to the receiver again from HUNT; a frame begun among them is shorter, so `depth` rescans
within rescans are enough when it is at least the number of bytes held. -/
def rxByte : Nat → Receiver → RxByte → Receiver × List RxFrame
  | depth, r, b =>
    match r.phase with
    | .hunt => if b.val = 0xC3#8 then (⟨.length, b.early, []⟩, []) else (rxHunt, [])
    | .length =>
      if 2 ≤ b.val.toNat ∧ b.val.toNat ≤ 250 then (⟨.body, r.startEarly, [b]⟩, []) else (rxHunt, [])
    | .body =>
      let held := r.held ++ [b]
      (⟨if held.length = heldLength held + 1 then .check else .body, r.startEarly, held⟩, [])
    | .check =>
      let held := r.held ++ [b]
      if held.length < heldLength held + 3 then (⟨.check, r.startEarly, held⟩, [])
      else if heldGood held then (rxHunt, [⟨heldFrame held, r.startEarly⟩])
      else
        match depth with
        | 0 => (rxHunt, [])
        | d + 1 =>
          held.foldl (fun x c => let y := rxByte d x.1 c; (y.1, x.2 ++ y.2)) (rxHunt, [])

/-- The rescans within rescans that a frame of at most 253 held bytes can bring. -/
def rxDepth : Nat := 253

/-- A run of bytes from the line passed to the receiver. -/
def rxBytes (r : Receiver) (early : Bool) (bytes : List Byte) : Receiver × List RxFrame :=
  bytes.foldl (fun x c => let y := rxByte rxDepth x.1 ⟨c, early⟩; (y.1, x.2 ++ y.2)) (r, [])

/-! ## The content of replies -/

/-- A field of a list entry: a number of a width in bytes, or a list of its own, whose entries are
numbers with their widths. A list knows how many entries it holds beside those it carries. -/
inductive SubItem where
  | num (width value : Nat)
  | list (total : Nat) (entries : List (List (Nat × Nat)))
  deriving DecidableEq, Repr

/-- A field of a reply's content: a number, or a list whose two counts have a given width (R165). -/
inductive Item where
  | num (width value : Nat)
  | list (countWidth total : Nat) (entries : List (List SubItem))
  deriving DecidableEq, Repr

/-- The bytes of numbers with their widths. -/
def numsBytes (l : List (Nat × Nat)) : List Byte := l.flatMap fun x => beBytes x.1 x.2

/-- The bytes of a field of an entry; a list has two counts, of the entries it holds and of those
carried (R165). -/
def SubItem.bytes : SubItem → List Byte
  | .num w v => beBytes w v
  | .list total es => beBytes 1 total ++ beBytes 1 es.length ++ es.flatMap numsBytes

/-- The bytes of a field of the content. -/
def Item.bytes : Item → List Byte
  | .num w v => beBytes w v
  | .list cw total es => beBytes cw total ++ beBytes cw es.length ++ es.flatMap (·.flatMap SubItem.bytes)

/-- The bytes of a content. -/
def contentBytes (c : List Item) : List Byte := c.flatMap Item.bytes

/-- An entry with the last entry of its last list that still carries one left out; none when no list
of the entry carries an entry. -/
def trimEntry : List SubItem → Option (List SubItem)
  | [] => none
  | x :: r =>
    match trimEntry r with
    | some r' => some (x :: r')
    | none =>
      match x with
      | .num _ _ => none
      | .list t es => if es = [] then none else some (.list t es.dropLast :: r)

/-- A list's entries with the last one trimmed, or left out when nothing of it can be trimmed. -/
def trimEntries : List (List SubItem) → Option (List (List SubItem))
  | [] => none
  | e :: r =>
    match trimEntries r with
    | some r' => some (e :: r')
    | none =>
      match trimEntry e with
      | some e' => some (e' :: r)
      | none => some r

/-- A content with one more whole list entry left out, from the end backward (R165, entry 15). -/
def trimContent : List Item → Option (List Item)
  | [] => none
  | x :: r =>
    match trimContent r with
    | some r' => some (x :: r')
    | none =>
      match x with
      | .num _ _ => none
      | .list w t es =>
        match trimEntries es with
        | some es' => some (.list w t es' :: r)
        | none => none

/-- A content trimmed until it has at most 246 bytes (R165). -/
def fitContent : Nat → List Item → List Item
  | 0, c => c
  | n + 1, c =>
    if (contentBytes c).length ≤ 246 then c
    else match trimContent c with
      | some c' => fitContent n c'
      | none => c

/-- The bytes of a reply's content, at most 246 of them. -/
def replyContent (c : List Item) : List Byte := contentBytes (fitContent (contentBytes c).length c)

/-- A list of one-byte numbers, such as slots or kinds. -/
def byteList (l : List Nat) : Item := .list 1 l.length (l.map fun v => [.num 1 v])

/-- A list of cell ids, which may exceed 255 entries. -/
def cellList (l : List Nat) : Item := .list 2 l.length (l.map fun v => [.num 2 v])

/-- A field that may be absent: its presence byte, then the field when present. -/
def optItems (o : Option (List Item)) : List Item :=
  match o with
  | none => [.num 1 0]
  | some l => .num 1 1 :: l

end Sys2Proof.Machine
end

