-- ==== Sys2Proof/Machine/Flags.lean ====
section
/-! DEFINITION. Flags and codes: the result codes (R162), the numbers of states and kinds in replies,
the parameters by identifier (R167), the fault settings and which faults halt or hold (R89), the any
latched fault flag (R88), the notice classes (R163) and the summary status byte (R161). -/

namespace Sys2Proof.Machine

/-! ## Result codes -/

/-- Reasons of ROUTE_REFUSED (R162). -/
inductive RouteReason where
  | notLinked | uTurn | senseForbidden | closedCell | dockInside | duplicate | tooLong
  | badDestination | startMismatch | grantedChanged | noStandPlace
  deriving DecidableEq, Repr

/-- The number of a ROUTE_REFUSED reason (R162). -/
def RouteReason.num : RouteReason → Nat
  | .notLinked => 1
  | .uTurn => 2
  | .senseForbidden => 3
  | .closedCell => 4
  | .dockInside => 5
  | .duplicate => 6
  | .tooLong => 7
  | .badDestination => 8
  | .startMismatch => 9
  | .grantedChanged => 10
  | .noStandPlace => 11

/-- Result codes (R162). -/
inductive Code where
  | done | clamped | busy | wrongMode | wrongState | locked | badArgument | badLength | unknownKind
  | badTag | notVacant | routeRefused | notArmed | heldByFault
  deriving DecidableEq, Repr

/-- The value of a result code (R162). -/
def Code.num : Code → Nat
  | .done => 0x00
  | .clamped => 0x01
  | .busy => 0x02
  | .wrongMode => 0x03
  | .wrongState => 0x04
  | .locked => 0x05
  | .badArgument => 0x06
  | .badLength => 0x07
  | .unknownKind => 0x08
  | .badTag => 0x09
  | .notVacant => 0x0A
  | .routeRefused => 0x0B
  | .notArmed => 0x0C
  | .heldByFault => 0x0D

/-- A refusal of a request: its code and what it adds (R162). -/
structure Refuse where
  code : Code
  content : List Item
  deriving DecidableEq, Repr

/-- A refusal that adds nothing. -/
def refuse (c : Code) : Refuse := ⟨c, []⟩

/-- BAD_ARGUMENT with a field number; 0xFF names an undefined cell (R162). -/
def badArgument (field : Nat) : Refuse := ⟨.badArgument, [.num 1 field]⟩

/-- ROUTE_REFUSED with its reason and entry index (R162). -/
def routeRefused (r : RouteReason) (i : Nat) : Refuse := ⟨.routeRefused, [.num 1 r.num, .num 1 i]⟩

/-! ## Numbers of states in replies and in the summary status -/

/-- The number of a mode (R161). -/
def Mode.num : Mode → Nat
  | .startup => 0
  | .config => 1
  | .service => 2
  | .commission => 3
  | .hold => 4
  | .lockdown => 5

/-- The number of the previous mode, in the order of R137. -/
def PrevMode.num : PrevMode → Nat
  | .none => 0
  | .service => 1
  | .commission => 2

/-- The hold causes as bits 0 LINK, 1 FAULT, 2 REQUEST (entry 12). -/
def HoldCauses.num (c : HoldCauses) : Nat := boolNum c.link + 2 * boolNum c.fault + 4 * boolNum c.request

/-- The number of the lockdown cause, in the order of R137. -/
def LockdownCause.num : LockdownCause → Nat
  | .none => 0
  | .count => 1
  | .window => 2

/-- The number of the reset cause, in the order of R137. -/
def ResetCause.num : ResetCause → Nat
  | .powerOn => 0
  | .pin => 1
  | .request => 2

/-- The number of the map state, in the order of R9. -/
def MapState.num : MapState → Nat
  | .empty => 0
  | .draft => 1
  | .checking => 2
  | .valid => 3
  | .invalid => 4

/-- The number of a reason of the map check, in the order of R11. -/
def MapReason.num : MapReason → Nat
  | .undefinedNeighbour => 0
  | .notReciprocal => 1
  | .selfLink => 2
  | .tooFewLinks => 3
  | .convoyOverLength => 4
  | .dockNotDeadEnd => 5

/-- The number of a carrier state; 0 is EMPTY (R166). -/
def CarrierState.num : CarrierState → Nat
  | .enrolled => 1
  | .active => 2
  | .halted => 3
  | .lost => 4

/-- The number of the halted cause (R166). -/
def HaltedCause.num : HaltedCause → Nat
  | .none => 0
  | .fault => 1
  | .hold => 2
  | .lapse => 3

/-- The number of a line rate, in the order of R156 (entry 12). -/
def LineRate.num : LineRate → Nat
  | .r115200 => 0
  | .r230400 => 1
  | .r460800 => 2
  | .r921600 => 3

/-- The number of an action (R167). -/
def Action.num : Action → Nat
  | .note => 0
  | .haltOne => 1
  | .haltAll => 2

/-- An action by its number (R167). -/
def actionOfNum : Nat → Option Action
  | 0 => some .note
  | 1 => some .haltOne
  | 2 => some .haltAll
  | _ => none

/-- The number of a wait kind, in the order of R131. -/
def WaitKind.num : WaitKind → Nat
  | .holds => 0
  | .ahead => 1

/-! ## Fault kinds -/

/-- The number of a carrier fault's kind in the order of the R85 table, from 0. INTRUSION is 6 and
GRIDLOCK is 7. -/
def FaultDetail.kind : FaultDetail → Nat
  | .lapse _ => 0
  | .overspeed _ _ => 1
  | .overrun _ _ _ => 2
  | .regress _ _ => 3
  | .jump _ _ _ => 4
  | .mismatch _ => 5

/-- The action set for a kind (R85, R89). -/
def Params.action (p : Params) : Nat → Action
  | 0 => p.lapse
  | 1 => p.overspeed
  | 2 => p.overrun
  | 3 => p.regress
  | 4 => p.jump
  | 5 => p.mismatch
  | 6 => p.intrusion
  | _ => p.gridlock

/-- Whether a kind allows an action (R85): HALT_ONE is not allowed for INTRUSION and GRIDLOCK. -/
def actionAllowed (kind : Nat) (a : Action) : Bool := a != .haltOne || kind < 6

/-- A halting fault of a carrier: latched, and its kind set to HALT_ONE or HALT_ALL now (R89). -/
def haltingKinds (p : Params) (c : Carrier) : List Nat :=
  (c.faults.map Prod.fst).filter fun k => p.action k != .note

/-- The latched carrier faults whose kind is set to HALT_ALL now (R89). -/
def holdingKinds (p : Params) (c : Carrier) : List Nat :=
  (c.faults.map Prod.fst).filter fun k => p.action k == .haltAll

/-- The slots with a holding carrier fault, with those kinds (R152). -/
def holdingCarriers (p : Params) (f : Floor) : List (Nat × List Nat) :=
  (f.carriers.map fun e => (e.1, holdingKinds p e.2)).filter fun e => e.2 != []

/-- The cells with a latched INTRUSION record (R86). -/
def blockedCells (f : Floor) : List Nat := (f.cells.filter fun e => e.2.intrusion.isSome).map Prod.fst

/-- The cells whose INTRUSION record is a holding fault (R89, R152). -/
def holdingCells (p : Params) (f : Floor) : List Nat :=
  if p.intrusion = .haltAll then blockedCells f else []

/-- At least one holding fault exists (R89). -/
def holdingFault (p : Params) (f : Floor) : Bool :=
  holdingCarriers p f != [] || holdingCells p f != [] || (p.gridlock = .haltAll && f.gridlocks != [])

/-- The any latched fault flag (R88). -/
def anyLatched (f : Floor) : Bool :=
  f.carriers.any (fun e => e.2.faults != []) || f.cells.any (fun e => e.2.intrusion.isSome)
    || f.gridlocks != []

/-! ## Parameters by identifier -/

/-- The value in force of a parameter 1..29 (R167). -/
def Params.get (p : Params) : Nat → Nat
  | 1 => p.linkTimeout
  | 2 => p.reportTimeout
  | 3 => p.filterTime
  | 4 => p.absenceTime
  | 5 => p.recoveryWindow
  | 6 => p.holdLimit
  | 7 => p.stopGap
  | 8 => p.releaseMargin
  | 9 => p.followGap
  | 10 => p.reactionMargin
  | 11 => p.speedTolerance
  | 12 => p.overrunTolerance
  | 13 => p.jitterTolerance
  | 14 => p.jumpAllowance
  | 15 => p.commissionSpeed
  | 16 => p.waitLimit
  | 17 => p.promoteTime
  | 26 => boolNum p.enableFault
  | 27 => boolNum p.enableMode
  | 28 => boolNum p.enableGridlock
  | 29 => boolNum p.enableRoute
  | id => (p.action (id - 18)).num

/-- An action by its number; a number without an action is not stored (R168 refuses it). -/
def actionOr (a : Action) (v : Nat) : Action := (actionOfNum v).getD a

/-- The store with a parameter's value written (R167). -/
def Params.set (p : Params) (id v : Nat) : Params :=
  match id with
  | 1 => { p with linkTimeout := v }
  | 2 => { p with reportTimeout := v }
  | 3 => { p with filterTime := v }
  | 4 => { p with absenceTime := v }
  | 5 => { p with recoveryWindow := v }
  | 6 => { p with holdLimit := v }
  | 7 => { p with stopGap := v }
  | 8 => { p with releaseMargin := v }
  | 9 => { p with followGap := v }
  | 10 => { p with reactionMargin := v }
  | 11 => { p with speedTolerance := v }
  | 12 => { p with overrunTolerance := v }
  | 13 => { p with jitterTolerance := v }
  | 14 => { p with jumpAllowance := v }
  | 15 => { p with commissionSpeed := v }
  | 16 => { p with waitLimit := v }
  | 17 => { p with promoteTime := v }
  | 18 => { p with lapse := actionOr p.lapse v }
  | 19 => { p with overspeed := actionOr p.overspeed v }
  | 20 => { p with overrun := actionOr p.overrun v }
  | 21 => { p with regress := actionOr p.regress v }
  | 22 => { p with jump := actionOr p.jump v }
  | 23 => { p with mismatch := actionOr p.mismatch v }
  | 24 => { p with intrusion := actionOr p.intrusion v }
  | 25 => { p with gridlock := actionOr p.gridlock v }
  | 26 => { p with enableFault := v == 1 }
  | 27 => { p with enableMode := v == 1 }
  | 28 => { p with enableGridlock := v == 1 }
  | 29 => { p with enableRoute := v == 1 }
  | _ => p

/-- The lower and upper limit of a parameter (R167, R169). -/
def paramRange : Nat → Nat × Nat
  | 1 => (100, 5000)
  | 2 => (50, 2000)
  | 3 => (0, 1000)
  | 4 => (100, 5000)
  | 5 => (5, 600)
  | 6 => (1, 15)
  | 7 => (100, 2000)
  | 8 => (0, 1000)
  | 9 => (200, 5000)
  | 10 => (0, 2000)
  | 11 => (0, 500)
  | 12 => (0, 500)
  | 13 => (0, 200)
  | 14 => (0, 2000)
  | 15 => (100, 1000)
  | 16 => (1, 600)
  | 17 => (0, 600)
  | id => if id < 26 then (0, 2) else (0, 1)

/-- The default of a parameter (R167). -/
def paramDefault (id : Nat) : Nat := defaultParams.get id

/-- The value that a write of parameter 1..17 stores: clamped to its range, then filter_time and
absence_time against each other (R117, R168); an action or enable is stored as sent. -/
def clampParam (p : Params) (id v : Nat) : Nat :=
  if 17 < id then v else
  let c := min (max v (paramRange id).1) (paramRange id).2
  if id = 3 then min c (p.absenceTime - 100)
  else if id = 4 then max c (p.filterTime + 100)
  else c

/-! ## Notice classes and the summary status -/

/-- A notice withheld (R161). -/
def NoticeClasses.withheld (c : NoticeClasses) : Bool :=
  c.fault.withheld || c.mode.withheld || c.gridlock.withheld || c.route.withheld

/-- An event of a class (R163): whether a notice is sent, and the class afterwards. -/
def noticeEvent (enabled : Bool) (c : NoticeClass) : Bool × NoticeClass :=
  if enabled then
    if c.armed then (true, { c with armed := false }) else (false, { c with withheld := true })
  else (false, c)

/-- A class re-armed by its read (R163). -/
def rearmed : NoticeClass := ⟨true, false⟩

/-- The summary status byte (R161). -/
def summary (s : State) : Byte :=
  BitVec.ofNat 8 (s.ctl.mode.num + 8 * boolNum (anyLatched s.floor) + 16 * boolNum s.ctl.halt
    + 32 * boolNum s.link.classes.withheld + 64 * boolNum s.link.rxOverflow
    + 128 * boolNum (s.floor.mapState = .valid))

end Sys2Proof.Machine
end

