-- ==== Sys2Proof/Machine/Reach.lean ====
section
/-! DEFINITION. Traversal and distances: the step test and the stand-place test (R3 to R5), the trail and
what a body covers (R31), the distances along a carrier's path, its grant bound, predecessor limits,
reach and ceiling (R67 to R77), its lookahead and stopping distance (R79, R80). -/

namespace Sys2Proof.Machine

/-! ## Records by key -/

/-- The record of a defined cell. -/
def Floor.cell (f : Floor) (id : Nat) : Option Cell := tget f.cells id

/-- The record of a carrier slot. -/
def Floor.carrier (f : Floor) (slot : Nat) : Option Carrier := tget f.carriers slot

/-- The floor with a cell's record changed. -/
def Floor.modCell (f : Floor) (id : Nat) (g : Cell → Cell) : Floor := { f with cells := tmod f.cells id g }

/-- The floor with a carrier's record changed. -/
def Floor.modCarrier (f : Floor) (slot : Nat) (g : Carrier → Carrier) : Floor :=
  { f with carriers := tmod f.carriers slot g }

/-- A carrier's record with its placement changed, where it has one. -/
def Carrier.modPlace (c : Carrier) (g : Placement → Placement) : Carrier := { c with place := c.place.map g }

/-- The length of a cell; an undefined cell has none, and 0 stands in (entry 24). -/
def Floor.len (f : Floor) (id : Nat) : Nat :=
  match f.cell id with
  | some c => c.length
  | none => 0

/-- The live speed limit of a cell; an undefined cell's default stands in (entry 24). -/
def Floor.limit (f : Floor) (id : Nat) : Nat :=
  match f.cell id with
  | some c => c.live.speedLimit
  | none => 4000

/-- The slots of the carriers of a floor, rising. -/
def Floor.slots (f : Floor) : List Nat := f.carriers.map Prod.fst

/-! ## Traversal (R3 to R5) -/

/-- The direction through a cell that is entered at an end (R3). -/
def entryDirection (p : Point) : Direction := if p = .b then .bToA else .aToB

/-- The end by which a carrier travelling in a direction entered (R24). -/
def directionEntry : Direction → Point
  | .aToB => .a
  | .bToA => .b

/-- The other end of a LANE, BAY or DOCK (R3). -/
def otherEnd (p : Point) : Point := if p = .a then .b else .a

/-- Whether a sense permits a direction (R3). -/
def Sense.permits (s : Sense) (d : Direction) : Bool :=
  match s, d with
  | .both, _ => true
  | .aToB, .aToB => true
  | .bToA, .bToA => true
  | _, _ => false

/-- Whether a cell's live sense permits entering it at a point; only a LANE has a sense. -/
def Cell.admits (c : Cell) (p : Point) : Bool :=
  match c.live.lane with
  | some l => l.sense.permits (entryDirection p)
  | none => true

/-- The four answers of the step test (R4). -/
inductive StepAnswer where
  | notLinked | uTurn | senseForbidden
  | legal (entry : Point)
  deriving DecidableEq, Repr

/-- The first connection point of a cell other than `p` that links to `n`, with the link it holds. -/
def exitLink (c : Cell) (p : Point) (n : Nat) : Option (Point × LinkRef) :=
  c.links.find? fun x => x.2.cell == n && x.1 != p

/-- The step test: from cell `c`, entered at `p`, into cell `n` (R4). In a LANE whose both ends link to `n` the far
end gives the answer, not U_TURN (entry 28). -/
def stepTest (f : Floor) (c : Cell) (p : Point) (n : Nat) : StepAnswer :=
  match exitLink c p n with
  | none => if c.links.any (fun x => x.2.cell == n) then .uTurn else .notLinked
  | some (_, l) =>
    match f.cell n with
    | none => .legal l.point
    | some d => if d.admits l.point then .legal l.point else .senseForbidden

/-- Whether a cell is keep-clear: a CROSSING always, a BAY or DOCK never, a LANE by its live value (R1). -/
def Cell.keepClear (c : Cell) : Bool :=
  match c.kind, c.live.lane with
  | .crossing, _ => true
  | .lane, some l => l.keepClear
  | _, _ => false

/-- The stand-place test (R5), for a carrier length under a stop_gap. -/
def Cell.stands (c : Cell) (stopGap carrierLength : Nat) : Bool :=
  !c.keepClear && carrierLength + stopGap ≤ c.length

/-- The stand-place test by cell id. -/
def Floor.stands (f : Floor) (stopGap carrierLength id : Nat) : Bool :=
  match f.cell id with
  | some c => c.stands stopGap carrierLength
  | none => false

/-! ## Trail and body (R31) -/

/-- Trail entries with s, the distance from the head back to their far boundary (R31). -/
def trailDist (f : Floor) : Nat → List Entry → List (Entry × Nat)
  | _, [] => []
  | s, e :: r => (e, s) :: trailDist f (s + f.len e.cell) r

/-- The trail of a placement with the distance s of each entry. -/
def Placement.trailS (f : Floor) (pl : Placement) : List (Entry × Nat) := trailDist f pl.offset pl.trail

/-- The cells that a body covers: the head cell, and trail entries with s below the carrier length (R31). -/
def Placement.covered (f : Floor) (pl : Placement) (length : Nat) : List Nat :=
  pl.head.cell :: ((pl.trailS f).filter fun x => x.2 < length).map fun x => x.1.cell

/-- The cells that a carrier's body covers; none for a carrier that is not placed. -/
def Carrier.covered (f : Floor) (c : Carrier) : List Nat :=
  match c.place with
  | some pl => pl.covered f c.profile.length
  | none => []

/-- The slots whose body covers a cell, rising. -/
def Floor.coverers (f : Floor) (id : Nat) : List Nat :=
  (f.carriers.filter fun e => (e.2.covered f).contains id).map Prod.fst

/-! ## Distances along the path (R67) -/

/-- The granted entries ahead of the head cell. -/
def Placement.grantedAhead (pl : Placement) : List Entry := pl.ahead.take (pl.granted - 1)

/-- The ungranted entries of the route. -/
def Placement.ungranted (pl : Placement) : List Entry := pl.ahead.drop (pl.granted - 1)

/-- Sum of the lengths of a list of entries. -/
def Floor.lenSum (f : Floor) (l : List Entry) : Nat := l.foldl (fun n e => n + f.len e.cell) 0

/-- Ahead distance of the far boundary of the head cell. -/
def Placement.headLeft (f : Floor) (pl : Placement) : Nat := f.len pl.head.cell - pl.offset

/-- Ahead distance of the near boundary of route entry `k`, `k` at least 1 (R67). -/
def Placement.near (f : Floor) (pl : Placement) (k : Nat) : Nat :=
  pl.headLeft f + f.lenSum (pl.ahead.take (k - 1))

/-- Ahead distance of a point of the path, where it has one (R67). -/
def Placement.aheadOf (f : Floor) (pl : Placement) (p : Pos) : Option Nat :=
  if p.cell = pl.head.cell then
    if pl.offset ≤ p.offset then some (p.offset - pl.offset) else none
  else (indexOfCell pl.ahead p.cell).map fun j => pl.near f (j + 1) + p.offset

/-- The point at a distance into a list of entries, the nearer cell at a boundary (R67); the far boundary
of the last entry when the distance runs past it. -/
def pointIn (f : Floor) (last : Pos) : Nat → List Entry → Pos
  | _, [] => last
  | d, e :: r =>
    if d ≤ f.len e.cell then ⟨e.cell, d⟩ else pointIn f ⟨e.cell, f.len e.cell⟩ (d - f.len e.cell) r

/-- The point at an ahead distance (R67). -/
def Placement.pointAt (f : Floor) (pl : Placement) (d : Nat) : Pos :=
  if d ≤ pl.headLeft f then ⟨pl.head.cell, pl.offset + d⟩
  else pointIn f ⟨pl.head.cell, f.len pl.head.cell⟩ (d - pl.headLeft f) pl.ahead

/-! ## Reach (R68 to R71) -/

/-- The last granted entry. -/
def Placement.lastGranted (pl : Placement) : Entry := pl.grantedAhead.getLastD pl.head

/-- Ahead distance of the far boundary of the last granted entry. -/
def Placement.grantedEnd (f : Floor) (pl : Placement) : Nat := pl.headLeft f + f.lenSum pl.grantedAhead

/-- The grant bound (R68). -/
def Placement.grantBound (f : Floor) (p : Params) (pl : Placement) : Nat :=
  match pl.ungranted, pl.dest with
  | [], some d =>
    if pl.grantedAhead = [] then d - pl.offset
    else pl.grantedEnd f - f.len pl.lastGranted.cell + d
  | _, _ => pl.grantedEnd f - p.stopGap

/-- P of R69: the distance from a lane's entry end to a predecessor's head, when the lane is the
predecessor's head cell or one of its trail cells. -/
def Placement.intoLane (f : Floor) (pl : Placement) (id : Nat) : Option Nat :=
  if pl.head.cell = id then some pl.offset
  else ((pl.trailS f).find? fun x => x.1.cell == id).map fun x => f.len id + x.2

/-- The predecessor limit that a lane yields for a carrier, given where the lane lies on its path: the
part of A beyond P, and B less the predecessor's length and follow_gap (R69). -/
def predLimit (f : Floor) (p : Params) (slot id a b : Nat) : Option Nat := do
  let c ← f.cell id
  if c.kind ≠ .lane then none else
  let y ← beforeIn c.holders slot
  let yc ← f.carrier y
  let ypl ← yc.place
  let q ← ypl.intoLane f id
  if q < c.length + yc.profile.length then some (a + q - (b + yc.profile.length + p.followGap)) else none

/-- The predecessor limits of a carrier from every lane it holds (R69). -/
def Placement.predLimits (f : Floor) (p : Params) (slot : Nat) (pl : Placement) : List Nat :=
  ((pl.trailS f).filterMap fun x => predLimit f p slot x.1.cell 0 (f.len x.1.cell + x.2))
    ++ (predLimit f p slot pl.head.cell 0 pl.offset).toList
    ++ pl.grantedAhead.zipIdx.filterMap fun x => predLimit f p slot x.1.cell (pl.near f (x.2 + 1)) 0

/-- D of R70: the least of the grant bound and the predecessor limits; the free distance of an ACTIVE
carrier (R72). -/
def Placement.freeDistance (f : Floor) (p : Params) (slot : Nat) (pl : Placement) : Nat :=
  least (pl.grantBound f p) (pl.predLimits f p slot)

/-- The ahead distance that a recomputation gives the reach: D for an ACTIVE carrier (R70), else the
nearer of D and the reach in the record, which counts 0 when it lies behind the head (R71) and when it lies in a cell
that is no longer on the path (entry 36). -/
def Carrier.reachDistance (f : Floor) (p : Params) (slot : Nat) (c : Carrier) (pl : Placement) : Nat :=
  let d := pl.freeDistance f p slot
  if c.state = .active then d else min d ((pl.aheadOf f pl.reach).getD 0)

/-! ## Ceiling (R73 to R77) -/

/-- A distance saturated at 200 000 and less reaction_margin (R73). -/
def brakingRoom (p : Params) (d : Nat) : Nat := min d 200000 - p.reactionMargin

/-- The cell term (R74). -/
def cellTerm (f : Floor) (c : Carrier) : Nat := least 4000 ((c.covered f).map f.limit)

/-- A braking term (R75). -/
def brakingTerm (p : Params) (decel limit dist : Nat) : Nat :=
  isqrt (limit * limit + 2 * decel * brakingRoom p dist)

/-- The braking terms of the entries up to and including the reach cell, for a reach at `d` (R75). -/
def brakingTerms (f : Floor) (p : Params) (decel : Nat) (pl : Placement) (d : Nat) : List Nat :=
  (pl.ahead.zipIdx.filter fun x => pl.near f (x.2 + 1) < d).map fun x =>
    brakingTerm p decel (f.limit x.1.cell) (pl.near f (x.2 + 1))

/-- The end term (R76). -/
def endTerm (p : Params) (decel d : Nat) : Nat := isqrt (2 * decel * brakingRoom p d)

/-- A speed rounded down to a multiple of 10. -/
def roundTen (v : Nat) : Nat := v / 10 * 10

/-- The ceiling of a carrier whose reach lies at `d` (R77, R84). -/
def Carrier.ceilingAt (f : Floor) (p : Params) (mode : Mode) (c : Carrier) (pl : Placement) (d : Nat) : Nat :=
  if c.state ≠ .active ∨ mode = .lockdown ∨ mode = .hold then 0 else
  roundTen (least c.profile.maxSpeed
    ((if mode = .commission then [p.commissionSpeed] else [])
      ++ cellTerm f c :: endTerm p c.profile.decel d :: brakingTerms f p c.profile.decel pl d))

/-- A carrier's record with reach and ceiling recomputed on a floor (R81, R82). -/
def Carrier.recomputed (f : Floor) (p : Params) (mode : Mode) (slot : Nat) (c : Carrier) : Carrier :=
  match c.place with
  | none => { c with ceiling := 0 }
  | some pl =>
    let d := c.reachDistance f p slot pl
    { c with place := some { pl with reach := pl.pointAt f d }, ceiling := c.ceilingAt f p mode pl d }

/-! ## Lookahead and stopping distance -/

/-- The lookahead (R79). -/
def lookahead (p : Params) (q : Profile) : Nat :=
  ceildiv (q.maxSpeed * q.maxSpeed) (2 * q.decel) + p.reactionMargin + p.stopGap

/-- The stopping distance from a speed (R80). -/
def stoppingDistance (p : Params) (decel speed : Nat) : Nat :=
  ceildiv (speed * speed) (2 * decel) + p.reactionMargin

end Sys2Proof.Machine
end

