-- ==== Sys2Proof/Machine/Ops.lean ====
section
/-! DEFINITION. The operations of the Passage Arbiter, the Map Store's amendments, the Detector Filter and
the halt shrink, over the floor alone: what each leaves of the parameters, the mode, the clock and the
link is untouched by its type. One event's operations share a floor and what the event still has to do. -/

namespace Sys2Proof.Machine

/-- What the operations of one event read of the rest of the part: the site time, the parameters and the
mode. -/
structure Ctx where
  now : Nat
  params : Params
  mode : Mode
  deriving DecidableEq, Repr

/-- What one event has gathered: cells to be examined, cells examined (R129), carriers granted whose
formation attempt is due (R55), carriers to recompute (R81), carriers whose route was cut (R124), the
number of passages that an applied amendment withdrew (R120), and carriers whose waiting passage a halt shrink
of the event is about to withdraw, so that it is not granted (R95). -/
structure Gathered where
  work : List Nat
  examined : List Nat
  granted : List Nat
  dirty : List Nat
  cuts : List Nat
  forbidden : Nat
  barred : List Nat
  deriving DecidableEq, Repr

/-- Nothing gathered. -/
def noneGathered : Gathered := ⟨[], [], [], [], [], 0, []⟩

/-- The floor within one event, with what the event has gathered. -/
structure FloorEvent where
  fl : Floor
  acc : Gathered
  deriving DecidableEq, Repr

/-- A change of the floor that gathers nothing. -/
def FloorEvent.onFloor (ev : FloorEvent) (g : Floor → Floor) : FloorEvent := { ev with fl := g ev.fl }

/-- Cells to be examined (R56). -/
def FloorEvent.toExamine (ev : FloorEvent) (cells : List Nat) : FloorEvent :=
  { ev with acc := { ev.acc with work := ev.acc.work ++ cells } }

/-- Carriers to be recomputed at the end of the event (R81, R82). -/
def FloorEvent.toRecompute (ev : FloorEvent) (slots : List Nat) : FloorEvent :=
  { ev with acc := { ev.acc with dirty := slots.foldr insertNum ev.acc.dirty } }

/-- The carriers whose waiting passage is not granted in the examinations that follow (R95). -/
def FloorEvent.bar (ev : FloorEvent) (slots : List Nat) : FloorEvent :=
  { ev with acc := { ev.acc with barred := slots } }

/-! ## Withdrawal (R60) -/

/-- The floor with a carrier's passage out of every waiting list, its record discarded, and every gridlock
record with the carrier as a member removed (R54, R60, R134). -/
def dropPassage (f : Floor) (slot : Nat) : Floor :=
  { f with
    cells := tmap f.cells fun _ c => { c with waiting := c.waiting.erase slot }
    carriers := tmod f.carriers slot fun c => { c with passage := none }
    gridlocks := f.gridlocks.filter fun r => !r.members.contains slot }

/-- Withdrawal of a carrier's waiting passage; nothing when it has none (R60). -/
def withdraw (slot : Nat) (ev : FloorEvent) : FloorEvent :=
  match (ev.fl.carrier slot).bind (·.passage) with
  | none => ev
  | some p => (ev.onFloor fun f => dropPassage f slot).toExamine (p.cells.map (·.cell))

/-- The slots with a waiting passage. -/
def Floor.waiters (f : Floor) : List Nat := (f.carriers.filter fun e => e.2.passage.isSome).map Prod.fst

/-- Withdrawal of every waiting passage (R62). -/
def withdrawAll (ev : FloorEvent) : FloorEvent := ev.fl.waiters.foldl (fun e x => withdraw x e) ev

/-! ## Route cuts (R26) -/

/-- A route cut before the entry at index `j` of the entries ahead of the head: the entries from it on are
removed, the route broken flag is set and the destination follows from the new last cell (R26). -/
def cutRecord (f : Floor) (p : Params) (j : Nat) (c : Carrier) : Carrier :=
  { c.modPlace (fun pl =>
      let ahead := pl.ahead.take j
      let last := (ahead.getLastD pl.head).cell
      { pl with
        ahead := ahead
        dest := if f.stands p.stopGap c.profile.length last then some (f.len last - p.stopGap) else none })
    with routeBroken := true }

/-- The cut of a carrier's route before index `j` of its entries ahead. -/
def cutRoute (ctx : Ctx) (slot j : Nat) (ev : FloorEvent) : FloorEvent :=
  let ev := ev.onFloor fun f => f.modCarrier slot (cutRecord f ctx.params j)
  { ev with acc := { ev.acc with cuts := insertNum slot ev.acc.cuts } }

/-! ## Amendments (R121 to R123) -/

/-- The live values with the fields present in an amendment replaced (R121). -/
def Amendment.applyTo (a : Amendment) (t : Traffic) : Traffic :=
  { closed := a.closed.getD t.closed
    speedLimit := a.speedLimit.getD t.speedLimit
    lane := t.lane.map fun l =>
      { sense := a.sense.getD l.sense
        keepClear := a.keepClear.getD l.keepClear
        convoy := a.convoy.getD l.convoy } }

/-- A cell was a stand place for a carrier length before an amendment and is no longer one (R122, R123). -/
def standLost (p : Params) (carrierLength : Nat) (old new : Cell) : Bool :=
  old.stands p.stopGap carrierLength && !new.stands p.stopGap carrierLength

/-- Whether the live values that an amendment has given a cell forbid passing it by an entry point, or ending on
it when it is the last cell (R122, R123). -/
def forbids (p : Params) (old new : Cell) (carrierLength : Nat) (entry : Point) (isLast : Bool) : Bool :=
  new.live.closed || !new.admits entry || (isLast && standLost p carrierLength old new)

/-- Whether a carrier's waiting passage is forbidden by an amended cell's live values (R122). -/
def passageForbidden (p : Params) (id : Nat) (old new : Cell) (c : Carrier) : Bool :=
  match c.passage with
  | none => false
  | some q =>
    match q.cells.find? fun e => e.cell == id with
    | none => false
    | some e => forbids p old new c.profile.length e.entry (q.cells.getLast? == some e)

/-- The index, among the entries ahead of the head, before which an amended cell's live values cut a carrier's
route: the cell stands beyond the granted prefix and is forbidden (R123). -/
def routeForbidden (p : Params) (id : Nat) (old new : Cell) (c : Carrier) : Option Nat := do
  let pl ← c.place
  let j ← indexOfCell pl.ahead id
  let e ← pl.ahead[j]?
  if pl.granted ≤ j + 1 ∧ forbids p old new c.profile.length e.entry (j + 1 == pl.ahead.length) then some j
  else none

/-- Withdrawal of the waiting passages that an amended cell's live values forbid (R122). -/
def withdrawForbidden (ctx : Ctx) (id : Nat) (old new : Cell) (ev : FloorEvent) : FloorEvent :=
  new.waiting.foldl (fun e x =>
    match e.fl.carrier x with
    | none => e
    | some c =>
      if passageForbidden ctx.params id old new c then
        let e := withdraw x e
        { e with acc := { e.acc with forbidden := e.acc.forbidden + 1 } }
      else e) ev

/-- The cuts of the routes that an amended cell's live values forbid, with their recomputation (R123). -/
def cutForbidden (ctx : Ctx) (id : Nat) (old new : Cell) (ev : FloorEvent) : FloorEvent :=
  ev.fl.carriers.foldl (fun e x =>
    match routeForbidden ctx.params id old new x.2 with
    | none => e
    | some j => (cutRoute ctx x.1 j e).toRecompute [x.1]) ev

/-- A cell's record with an amendment applied and none pending (R121). -/
def amended (a : Amendment) (c : Cell) : Cell := { c with live := a.applyTo c.live, amendment := none }

/-- The application of an amendment to a cell (R121). -/
def applyAmendment (ctx : Ctx) (id : Nat) (a : Amendment) (ev : FloorEvent) : FloorEvent :=
  match ev.fl.cell id with
  | none => ev
  | some c =>
    let ev := ev.onFloor fun f => f.modCell id (amended a)
    (cutForbidden ctx id c (amended a c) (withdrawForbidden ctx id c (amended a c) ev)).toExamine [id]

/-! ## Confirmation, sweep and absence (R109, R111, R114) -/

/-- A cell's record after a sweep (R111). -/
def swept (c : Cell) : Cell :=
  { c with
    confirmed := false
    sweepPending := false
    raw := .unknown
    filtered := .unknown
    filterTimer := none
    absence := .idle }

/-- A cell becomes confirmed; it is examined when it was not (R109). -/
def confirm (id : Nat) (ev : FloorEvent) : FloorEvent :=
  match ev.fl.cell id with
  | none => ev
  | some c =>
    if c.confirmed then ev
    else (ev.onFloor fun f => f.modCell id fun c => { c with confirmed := true }).toExamine [id]

/-- An absence timer running from now (R114). -/
def absenceFrom (ctx : Ctx) : Absence := .running ⟨ctx.now, ctx.params.absenceTime⟩

/-- A body comes to cover a cell (R114). -/
def coverStart (ctx : Ctx) (c : Cell) : Cell :=
  if !c.detector then c else
  match c.absence with
  | .idle => if c.filtered = .empty then { c with absence := absenceFrom ctx } else c
  | .running _ => c
  | .spent => { c with absence := absenceFrom ctx }

/-- A body stops covering a cell, and others may still cover it (R114). -/
def coverStop (covered : Bool) (c : Cell) : Cell := if covered then c else { c with absence := .idle }

/-- The changes of coverage that a carrier's move brings, from the cells covered before to those covered
after; the floor is the one after the move (R116). -/
def coverChange (ctx : Ctx) (before after : List Nat) (f : Floor) : Floor :=
  let f := (before.filter fun x => !after.contains x).foldl
    (fun g x => g.modCell x (coverStop (g.coverers x != []))) f
  (after.filter fun x => !before.contains x).foldl (fun g x => g.modCell x (coverStart ctx)) f

/-! ## Release (R63) -/

/-- The cell's record with a carrier out of its holder list; the lock goes with the last holder. -/
def leaveCell (slot : Nat) (c : Cell) : Cell :=
  let h := c.holders.erase slot
  { c with holders := h, lock := if h = [] then none else c.lock }

/-- Step 2 of a release, for a cell left with no holders: the pending amendment, then the sweep. -/
def vacated (ctx : Ctx) (id : Nat) (ev : FloorEvent) : FloorEvent :=
  match ev.fl.cell id with
  | none => ev
  | some c =>
    if c.holders ≠ [] then ev else
    let ev := match c.amendment with
      | some a => applyAmendment ctx id a ev
      | none => ev
    if c.sweepPending then ev.onFloor fun f => f.modCell id swept else ev

/-- The release of a carrier from one cell (R63). -/
def release (ctx : Ctx) (slot id : Nat) (ev : FloorEvent) : FloorEvent :=
  match ev.fl.cell id with
  | none => ev
  | some c =>
    if !c.holders.contains slot then ev else
    let ev := (ev.onFloor fun f => f.modCell id (leaveCell slot)).toRecompute (afterIn c.holders slot).toList
    (vacated ctx id ev).toExamine [id]

/-- The releases of one cause, in the order of the list: the trail from the nearest entry back, the head cell, the
granted entries in route order (R64). An amendment that a release applies finds the routes as the releases before
it have left them (R124, entry 31). -/
def releaseAll (ctx : Ctx) (slot : Nat) (cells : List Nat) (ev : FloorEvent) : FloorEvent :=
  cells.foldl (fun e x => release ctx slot x e) ev

/-! ## Examination and grant (R44, R52 to R56) -/

/-- A cell is grantable (R44). -/
def Cell.grantable (c : Cell) : Bool := !c.live.closed && c.intrusion.isNone && c.confirmed

/-- The holder rule (R52). -/
def Cell.canTake (c : Cell) (entry : Point) : Bool :=
  match c.holders, c.live.lane with
  | [], _ => true
  | h, some l => c.lock = some (entryDirection entry) && h.length < l.convoy
  | _, none => false

/-- The three conditions of a grant at one cell of a passage (R53). -/
def grantableAt (f : Floor) (slot : Nat) (e : Entry) : Bool :=
  match f.cell e.cell with
  | none => false
  | some c => c.grantable && c.waiting.head? = some slot && c.canTake e.entry

/-- A waiting passage is granted when the conditions hold for every one of its cells (R53). -/
def canGrant (f : Floor) (slot : Nat) (p : Passage) : Bool := p.cells.all (grantableAt f slot)

/-- A cell's record with a carrier at the end of its holder list; a LANE without a lock takes the
carrier's direction (R41, R42). -/
def joinCell (slot : Nat) (entry : Point) (c : Cell) : Cell :=
  { c with
    holders := c.holders ++ [slot]
    lock := if c.kind = .lane ∧ c.lock = none then some (entryDirection entry) else c.lock }

/-- The carriers that follow a carrier in some lane (R41). -/
def followersOf (f : Floor) (slot : Nat) : List Nat :=
  f.cells.filterMap fun e => if e.2.kind = .lane then afterIn e.2.holders slot else none

/-- The floor after the grant of a passage (R54). -/
def grantFloor (slot : Nat) (p : Passage) (f : Floor) : Floor :=
  let f := dropPassage f slot
  let f := p.cells.foldl (fun g e => g.modCell e.cell (joinCell slot e.entry)) f
  f.modCarrier slot fun c => c.modPlace fun pl => { pl with granted := pl.granted + p.cells.length }

/-- The grant of a carrier's waiting passage (R54, R55). -/
def grant (slot : Nat) (p : Passage) (ev : FloorEvent) : FloorEvent :=
  let ev := ((ev.onFloor (grantFloor slot p)).toExamine (p.cells.map (·.cell))).toRecompute
    (slot :: followersOf ev.fl slot)
  { ev with acc := { ev.acc with granted := insertNum slot ev.acc.granted } }

/-- The examination of one cell: its first passage is granted when it can be (R53, R56) and no halt shrink is about
to withdraw it (R95). -/
def examineCell (id : Nat) (ev : FloorEvent) : FloorEvent :=
  let ev := { ev with acc := { ev.acc with examined := insertNum id ev.acc.examined } }
  match (ev.fl.cell id).bind (·.waiting.head?) with
  | none => ev
  | some slot =>
    match (ev.fl.carrier slot).bind (·.passage) with
    | none => ev
    | some p => if !ev.acc.barred.contains slot && canGrant ev.fl slot p then grant slot p ev else ev

/-- Examination of the cells waiting for it, at most `n` of them. -/
def examineUpTo : Nat → FloorEvent → FloorEvent
  | 0, ev => ev
  | n + 1, ev =>
    match ev.acc.work with
    | [] => ev
    | id :: rest => examineUpTo n (examineCell id { ev with acc := { ev.acc with work := rest } })

/-- The number of cells of every waiting passage: each grant adds its passage's cells to be examined and
takes the passage away, so an examination ends within the cells waiting and these. -/
def Floor.waitingCells (f : Floor) : Nat :=
  f.carriers.foldl (fun n e => n + match e.2.passage with
    | some p => p.cells.length
    | none => 0) 0

/-- Examination until no examined first passage is grantable (R56). -/
def examine (ev : FloorEvent) : FloorEvent := examineUpTo (ev.acc.work.length + ev.fl.waitingCells) ev

/-! ## Formation and queuing (R45 to R51) -/

/-- Passage `p` stands before `q` in a list (R50). -/
def Passage.before (p q : Passage) : Bool :=
  q.priority < p.priority || (p.priority = q.priority && p.seq < q.seq)

/-- Whether the passage of a slot stands before a passage. -/
def slotBefore (f : Floor) (x : Nat) (q : Passage) : Bool :=
  match (f.carrier x).bind (·.passage) with
  | some p => p.before q
  | none => false

/-- Insertion into a waiting list: after every passage that stands before the new one, before every other
(R50). -/
def insertWaiting (f : Floor) (slot : Nat) (q : Passage) : List Nat → List Nat
  | [] => [slot]
  | x :: r => if slotBefore f x q then x :: insertWaiting f slot q r else slot :: x :: r

/-- The floor with a passage inserted in the waiting list of each of its cells. -/
def insertEverywhere (slot : Nat) (q : Passage) (f : Floor) : Floor :=
  q.cells.foldl (fun g e => g.modCell e.cell fun c => { c with waiting := insertWaiting f slot q c.waiting }) f

/-- The passage that would be queued now for a carrier (R48, R57). -/
def newPassage (ctx : Ctx) (f : Floor) (c : Carrier) (granted : Nat) (cells : List Entry) : Passage :=
  { index := granted
    cells := cells
    seq := f.queueSeq
    basePriority := c.profile.priority
    priority := c.profile.priority
    queued := ctx.now
    waitPeriod := ctx.params.waitLimit * 1000
    promotePeriod := if ctx.params.promoteTime = 0 then none else some (ctx.params.promoteTime * 1000) }

/-- The queuing of a formed passage, or its refusal for a full list (R49, R51). -/
def queuePassage (ctx : Ctx) (slot : Nat) (c : Carrier) (granted : Nat) (cells : List Entry) (ev : FloorEvent) :
    FloorEvent :=
  if cells.any fun e => match ev.fl.cell e.cell with
      | some k => Config.waitingPassages ≤ k.waiting.length
      | none => false
  then ev.onFloor fun f => f.modCarrier slot fun c => { c with queueRefused := true }
  else
    let q := newPassage ctx ev.fl c granted cells
    let ev := ev.onFloor fun f =>
      { (insertEverywhere slot q f).modCarrier slot fun c => { c with passage := some q, queueRefused := false }
        with queueSeq := (f.queueSeq + 1) % clockModulus }
    ev.toExamine (cells.map (·.cell))

/-- The conditions of a formation attempt (R45). -/
def mayForm (ctx : Ctx) (f : Floor) (slot : Nat) (c : Carrier) (pl : Placement) : Bool :=
  c.state = .active && (ctx.mode = .service || ctx.mode = .commission)
    && c.passage.isNone && !c.stalled
    && pl.ungranted.any (fun e => f.stands ctx.params.stopGap c.profile.length e.cell)
    && pl.freeDistance f ctx.params slot < lookahead ctx.params c.profile

/-- The entries of a formed passage: from the first ungranted entry through the first stand place among
the eight from it on; none when there is none among them (R46, R47). -/
def passageEntries (p : Params) (f : Floor) (carrierLength : Nat) (ungranted : List Entry) : Option (List Entry) :=
  ((ungranted.take Config.passageCells).findIdx? fun e => f.stands p.stopGap carrierLength e.cell).map
    fun j => ungranted.take (j + 1)

/-- A formation attempt for a carrier (R45 to R51). -/
def form (ctx : Ctx) (slot : Nat) (ev : FloorEvent) : FloorEvent :=
  match ev.fl.carrier slot with
  | none => ev
  | some c =>
    match c.place with
    | none => ev
    | some pl =>
      if !mayForm ctx ev.fl slot c pl then ev else
      match passageEntries ctx.params ev.fl c.profile.length pl.ungranted with
      | none => ev.onFloor fun f => f.modCarrier slot fun c => { c with routeBroken := true }
      | some cells => queuePassage ctx slot c pl.granted cells ev

/-- Examinations, with the formation attempts of the carriers granted in each as it ends, in increasing
order of slot, each followed by its own examination (R55, entry 19). -/
def settleUpTo (ctx : Ctx) : Nat → List Nat → FloorEvent → FloorEvent
  | 0, _, ev => ev
  | n + 1, todo, ev =>
    let ev := examine ev
    match ev.acc.granted ++ todo with
    | [] => ev
    | x :: rest => settleUpTo ctx n rest (form ctx x { ev with acc := { ev.acc with granted := [] } })

/-- The number of route entries on the floor: each grant takes at least one ungranted entry, so an event
has at most as many formation attempts that follow grants. -/
def Floor.routeEntries (f : Floor) : Nat :=
  f.carriers.foldl (fun n e => n + match e.2.place with
    | some pl => pl.ahead.length
    | none => 0) 0

/-- The examinations and formation attempts that an event has brought, with those they bring. -/
def settle (ctx : Ctx) (ev : FloorEvent) : FloorEvent := settleUpTo ctx (ev.fl.routeEntries + 1) [] ev

/-- A formation attempt with the examinations that follow (R45, R49). -/
def formAndSettle (ctx : Ctx) (slot : Nat) (ev : FloorEvent) : FloorEvent := settle ctx (form ctx slot ev)

/-! ## Promotion (R58) -/

/-- The cells whose waiting list differs between two floors. -/
def listChanged (f g : Floor) (cells : List Nat) : List Nat :=
  cells.filter fun x => (f.cell x).map (·.waiting) != (g.cell x).map (·.waiting)

/-- The promotion of a waiting passage (R58). Every list in which it has passed another passage is examined, the
lists whose first passage stays as well, so that the passages it has passed are handed to the Gridlock Monitor
(R129, entry 32). -/
def promote (slot : Nat) (ev : FloorEvent) : FloorEvent :=
  match (ev.fl.carrier slot).bind (·.passage) with
  | none => ev
  | some p =>
    let q := { p with priority := 3, promotePeriod := none }
    let record (f : Floor) : Floor := f.modCarrier slot fun c => { c with passage := some q }
    if p.priority = 3 then ev.onFloor record else
    let ids := p.cells.map (·.cell)
    let g := record { ev.fl with cells := tmap ev.fl.cells fun _ c => { c with waiting := c.waiting.erase slot } }
    let g := insertEverywhere slot q g
    { ev with fl := g }.toExamine (listChanged ev.fl g ids)

/-! ## Halt shrink (R94) -/

/-- How many granted entries, the head cell among them, a reach at ahead distance `d` keeps (R94). -/
def keptGrants (f : Floor) (pl : Placement) (d : Nat) : Nat :=
  1 + (pl.grantedAhead.zipIdx.filter fun x => pl.near f (x.2 + 1) ≤ d).length

/-- The ahead distance of the reach that a halt shrink gives (R80). -/
def shrinkDistance (f : Floor) (p : Params) (decel : Nat) (pl : Placement) : Nat :=
  min ((pl.aheadOf f pl.reach).getD 0) (stoppingDistance p decel pl.last.speed)

/-- The first three steps of a halt shrink and its ceiling: the state and halted cause, the new reach, and the
release of the granted entries beyond it (R94). -/
def haltRelease (ctx : Ctx) (slot : Nat) (state : CarrierState) (cause : HaltedCause) (ev : FloorEvent) :
    FloorEvent :=
  match (ev.fl.carrier slot).bind (·.place), ev.fl.carrier slot with
  | some pl, some c =>
    let d := shrinkDistance ev.fl ctx.params c.profile.decel pl
    let kept := keptGrants ev.fl pl d
    let gone := (pl.grantedAhead.drop (kept - 1)).map (·.cell)
    let reach := pl.pointAt ev.fl d
    let ev := ev.onFloor fun f => f.modCarrier slot fun c =>
      { c.modPlace (fun pl => { pl with reach := reach, granted := kept }) with
        state := state
        haltedCause := cause
        ceiling := 0 }
    releaseAll ctx slot gone ev
  | _, _ => ev

/-- The halt shrink of a carrier within HOLD entry, whose examinations follow all its halts and withdrawals (R62, R94,
R148). -/
def haltShrink (ctx : Ctx) (slot : Nat) (state : CarrierState) (cause : HaltedCause) (ev : FloorEvent) : FloorEvent :=
  (withdraw slot (haltRelease ctx slot state cause ev)).toRecompute [slot]

/-- The halt shrink of one carrier alone: the released cells are examined, with the carrier's own passage not
granted, before that passage is withdrawn; then its cells are examined (R94, R95, entry 18). -/
def haltAlone (ctx : Ctx) (slot : Nat) (state : CarrierState) (cause : HaltedCause) (ev : FloorEvent) : FloorEvent :=
  let ev := settle ctx ((haltRelease ctx slot state cause ev).bar [slot])
  settle ctx ((withdraw slot (ev.bar [])).toRecompute [slot])

/-- An operation on a carrier that is ACTIVE; any other is left as it is (R91, R148). -/
def onActive (slot : Nat) (g : FloorEvent → FloorEvent) (ev : FloorEvent) : FloorEvent :=
  match ev.fl.carrier slot with
  | some c => if c.state = .active then g ev else ev
  | none => ev

/-! ## Recomputation (R81, R82) -/

/-- The slots of the placed carriers. -/
def Floor.placedSlots (f : Floor) : List Nat := (f.carriers.filter fun e => e.2.place.isSome).map Prod.fst

/-- Every placed carrier is to be recomputed. -/
def recomputeAll (ev : FloorEvent) : FloorEvent := ev.toRecompute ev.fl.placedSlots

/-- The floor with the reach and ceiling of the carriers of a list recomputed. No recomputation reads
another's outcome (R82). -/
def recompute (ctx : Ctx) (slots : List Nat) (f : Floor) : Floor :=
  { f with carriers := tmap f.carriers fun s c =>
      if slots.contains s then c.recomputed f ctx.params ctx.mode s else c }

/-! ## Map check (R11) -/

/-- Whether a link of a cell at a point is reciprocal (R2, R11). -/
def reciprocal (f : Floor) (id : Nat) (p : Point) (l : LinkRef) : Bool :=
  match f.cell l.cell with
  | none => false
  | some d => d.links.contains (l.point, ⟨id, p⟩)

/-- The first of a cell's links that fails a test, as an error. -/
def linkError (id : Nat) (reason : MapReason) (c : Cell) (bad : Point → LinkRef → Bool) : Option MapError :=
  (c.links.find? fun x => bad x.1 x.2).map fun x => ⟨id, reason, some x.1⟩

/-- A test of a cell as a whole. -/
def cellError (id : Nat) (reason : MapReason) (bad : Bool) : Option MapError :=
  if bad then some ⟨id, reason, none⟩ else none

/-- The first of the six tests of R11 that a cell fails. -/
def checkCell (f : Floor) (id : Nat) (c : Cell) : Option MapError :=
  (linkError id .undefinedNeighbour c fun _ l => (f.cell l.cell).isNone)
    <|> (linkError id .notReciprocal c fun p l => !reciprocal f id p l)
    <|> (linkError id .selfLink c fun _ l => l.cell == id)
    <|> (cellError id .tooFewLinks (c.links.length < if c.kind = .crossing then 2 else 1))
    <|> (cellError id .convoyOverLength (match c.defined.lane with
      | some l => c.length / 1000 < l.convoy
      | none => false))
    <|> (cellError id .dockNotDeadEnd (c.kind = .dock && !((c.links.map Prod.fst).contains .a
      && !(c.links.map Prod.fst).contains .b)))

/-- The first failure of the map check, in increasing order of cell id (R11). -/
def mapCheck (f : Floor) : Option MapError := f.cells.findSome? fun e => checkCell f e.1 e.2

end Sys2Proof.Machine
end

