-- ==== Sys2Proof/Machine/Gridlock.lean ====
section
/-! DEFINITION. The Gridlock Monitor: blockers (R128), the search (R130) and the records (R131). -/

namespace Sys2Proof.Machine

/-- The blockers that a passage of carrier `slot` has at one of its cells, with the links they give: the
holders against the holder rule, then the carriers ahead in the waiting list (R128). -/
def blockersAt (f : Floor) (slot : Nat) (e : Entry) : List (Nat × GridLink) :=
  match f.cell e.cell with
  | none => []
  | some c =>
    (if c.canTake e.entry then [] else c.holders.map fun x => (x, ⟨e.cell, .holds⟩))
      ++ (c.waiting.takeWhile fun x => x != slot).map fun x => (x, ⟨e.cell, .ahead⟩)

/-- A list of blockers with each carrier at its first place alone. -/
def firstPlaces : List (Nat × GridLink) → List (Nat × GridLink)
  | [] => []
  | b :: r => b :: (firstPlaces r).filter fun x => x.1 != b.1

/-- The blockers of a carrier's waiting passage, in the order of R128; none without a passage. A carrier is
never its own blocker. -/
def blockers (f : Floor) (slot : Nat) : List (Nat × GridLink) :=
  match (f.carrier slot).bind (·.passage) with
  | none => []
  | some p => (firstPlaces (p.cells.flatMap (blockersAt f slot))).filter fun x => x.1 != slot

/-- The depth-first search from carrier `cur` toward carrier `x`: the chain that meets `x`, each member with
the link to the next, and the carriers reached (R130). -/
def follow (f : Floor) (x : Nat) : Nat → Nat → List Nat → Option (List (Nat × GridLink)) × List Nat
  | 0, _, reached => (none, reached)
  | n + 1, cur, reached =>
    (blockers f cur).foldl (fun acc b =>
      match acc.1 with
      | some _ => acc
      | none =>
        if b.1 = x then (some [(cur, b.2)], acc.2)
        else if acc.2.contains b.1 then acc
        else
          let r := follow f x n b.1 (b.1 :: acc.2)
          (r.1.map fun chain => (cur, b.2) :: chain, r.2)) (none, reached)

/-- The search of a handed passage: the ring through its carrier, when it finds one. Each carrier is reached
at most once, so the number of carriers bounds the depth (R130). -/
def searchRing (f : Floor) (x : Nat) : Option (List (Nat × GridLink)) := (follow f x (f.carriers.length + 1) x []).1

/-- The outcome of the searches of one event: the members of the records created, first to last, and whether
the overflow flag was set in it. -/
structure GridOutcome where
  created : List (List Nat)
  overflowed : Bool
  deriving DecidableEq, Repr

/-- A found ring against the table: nothing when a record has its member set, a new record when the table
has room, else the overflow flag (R131). -/
def recordRing (now : Nat) (ring : List (Nat × GridLink)) (f : Floor) (o : GridOutcome) : Floor × GridOutcome :=
  let members := ring.map Prod.fst
  if f.gridlocks.any fun r => sortNum r.members == sortNum members then (f, o)
  else if f.gridlocks.length < Config.gridlockRecords then
    ({ f with gridlocks := f.gridlocks ++ [⟨members, ring.map Prod.snd, now⟩] },
      { o with created := o.created ++ [members] })
  else ({ f with gridOverflow := true }, { o with overflowed := o.overflowed || !f.gridOverflow })

/-- The slots handed to the Monitor: those whose passage stands in the waiting list of an examined cell,
rising (R129). -/
def handed (f : Floor) (examined : List Nat) : List Nat :=
  sortNum (examined.flatMap fun id => match f.cell id with
    | some c => c.waiting
    | none => [])

/-- The searches of one event, in increasing order of slot (R129). -/
def searches (now : Nat) (f : Floor) (slots : List Nat) : Floor × GridOutcome :=
  slots.foldl (fun x slot =>
    match searchRing x.1 slot with
    | none => x
    | some ring => recordRing now ring x.1 x.2) (f, ⟨[], false⟩)

end Sys2Proof.Machine
end

