-- ==== Sys2Proof/Machine/Supervision.lean ====
section
/-! DEFINITION. One event of the part: the operations of the Mode Controller (R143 to R153) and the
Supervision Unit (R86 to R93), and what closes an event: the gridlock searches, the recomputation and the
events of the notice classes. -/

namespace Sys2Proof.Machine

/-- The source of a ROUTE event (R163). -/
inductive RouteSource where
  | mapCheck | carriers
  deriving DecidableEq, Repr

/-- The notice-class events of one event: the kind and owner of the first fault latched, whether a MODE
event was taken, what a GRIDLOCK notice names, and the source of a ROUTE event (R163). -/
structure Notices where
  fault : Option (Nat × Nat)
  mode : Bool
  grid : Option (List Nat)
  route : Option RouteSource
  deriving DecidableEq, Repr

/-- One event in progress: the state, what the floor's operations have gathered, and its notice-class
events. -/
structure Event where
  s : State
  acc : Gathered
  notices : Notices
  deriving DecidableEq, Repr

/-- An event that has done nothing yet. -/
def Event.start (s : State) : Event := ⟨s, noneGathered, ⟨none, false, none, none⟩⟩

/-- What the floor's operations read of a state. -/
def State.ctx (s : State) : Ctx := ⟨s.clock.siteTime, s.params, s.ctl.mode⟩

/-- An operation of the floor within an event. -/
def Event.onFloor (e : Event) (g : Ctx → FloorEvent → FloorEvent) : Event :=
  let r := g e.s.ctx ⟨e.s.floor, e.acc⟩
  { e with s := { e.s with floor := r.fl }, acc := r.acc }

/-- A change of the Mode Controller within an event. -/
def Event.onCtl (e : Event) (g : ModeController → ModeController) : Event :=
  { e with s := { e.s with ctl := g e.s.ctl } }

/-- A MODE event (R154). -/
def Event.modeEvent (e : Event) : Event := { e with notices := { e.notices with mode := true } }

/-- A ROUTE event (R163). -/
def Event.routeEvent (e : Event) (r : RouteSource) : Event := { e with notices := { e.notices with route := some r } }

/-! ## Timers of the modes (R25, R146) -/

/-- Every report timer stopped (R25). -/
def stopReportTimers (f : Floor) : Floor := { f with carriers := tmap f.carriers fun _ c => { c with reportTimer := none } }

/-- A report timer started now (R25). -/
def reportTimerFrom (ctx : Ctx) : Option Timer := some ⟨ctx.now, ctx.params.reportTimeout⟩

/-- The report timer of every ACTIVE and HALTED carrier started (R25, R143). -/
def startReportTimers (ctx : Ctx) (f : Floor) : Floor :=
  { f with carriers := tmap f.carriers fun _ c =>
      if c.state = .active ∨ c.state = .halted then { c with reportTimer := reportTimerFrom ctx } else c }

/-- The link supervision timer started now (R146). -/
def linkTimerFrom (ctx : Ctx) : LinkTimer := .running ⟨ctx.now, ctx.params.linkTimeout⟩

/-! ## Hold and lockdown (R148, R150, R153) -/

/-- A set of causes with one added. -/
def HoldCauses.add (c d : HoldCauses) : HoldCauses := ⟨c.link || d.link, c.fault || d.fault, c.request || d.request⟩

/-- The set of hold causes that is empty. -/
def noCauses : HoldCauses := ⟨false, false, false⟩

/-- The cause LINK. -/
def causeLink : HoldCauses := ⟨true, false, false⟩

/-- The cause FAULT. -/
def causeFault : HoldCauses := ⟨false, true, false⟩

/-- The cause REQUEST. -/
def causeRequest : HoldCauses := ⟨false, false, true⟩

/-- The previous mode that HOLD entry writes (R148). -/
def leftMode : Mode → PrevMode
  | .service => .service
  | .commission => .commission
  | _ => .none

/-- The Mode Controller at LOCKDOWN entry (R153). -/
def lockedCtl (cause : LockdownCause) (c : ModeController) : ModeController :=
  { c with
    mode := .lockdown
    previous := .none
    lockdownCause := cause
    holdCount := 0
    recovery := none
    linkTimer := .stopped
    halt := true }

/-- LOCKDOWN entry (R153). -/
def enterLockdown (cause : LockdownCause) (e : Event) : Event :=
  ((e.onCtl (lockedCtl cause)).onFloor fun ctx ev =>
    settle ctx (recomputeAll ((withdrawAll ev).onFloor stopReportTimers))).modeEvent

/-- The Mode Controller at HOLD entry (R148). -/
def heldCtl (now : Nat) (p : Params) (cause : HoldCauses) (c : ModeController) : ModeController :=
  { c with
    mode := .hold
    previous := leftMode c.mode
    causes := cause
    holdCount := c.holdCount + 1
    recovery := some ⟨now, p.recoveryWindow * 1000⟩
    halt := true }

/-- The halts of HOLD entry: every ACTIVE carrier (R148), in increasing order of slot, which is the model's choice
(entry 31). -/
def haltAllActive (ctx : Ctx) (ev : FloorEvent) : FloorEvent :=
  ev.fl.slots.foldl (fun e x => onActive x (haltShrink ctx x .halted .hold) e) ev

/-- HOLD entry (R148). -/
def enterHold (cause : HoldCauses) (e : Event) : Event :=
  ((e.onCtl (heldCtl e.s.clock.siteTime e.s.params cause)).onFloor fun ctx ev =>
    settle ctx (recomputeAll (withdrawAll (haltAllActive ctx ev)))).modeEvent

/-- A hold cause handed to the Mode Controller (R138, R148, R150). -/
def handCause (cause : HoldCauses) (e : Event) : Event :=
  match e.s.ctl.mode with
  | .service | .commission =>
    if e.s.params.holdLimit ≤ e.s.ctl.holdCount + 1 then
      enterLockdown .count (e.onCtl fun c => { c with causes := cause })
    else enterHold cause e
  | .hold =>
    if e.s.ctl.causes.add cause = e.s.ctl.causes then e
    else (e.onCtl fun c => { c with causes := c.causes.add cause }).modeEvent
  | _ => e

/-! ## Faults (R86 to R93) -/

/-- The kinds among a list of details whose record is clear for a carrier, rising: what a latching latches
(R86). -/
def newKinds (c : Carrier) (ds : List FaultDetail) : List Nat :=
  sortNum ((ds.map FaultDetail.kind).filter fun k => (tget c.faults k).isNone)

/-- A carrier's record with the faults detected in one event latched where they are clear (R86). -/
def latchInto (now : Nat) (ds : List FaultDetail) (c : Carrier) : Carrier :=
  { c with faults := ds.foldl (fun t d =>
      if (tget t d.kind).isNone then tset t d.kind ⟨now, d, false⟩ else t) c.faults }

/-- The first fault latched in an event, in the order of the R85 table (R87). -/
def firstFault (kinds : List Nat) (owner : Nat) (old : Option (Nat × Nat)) : Option (Nat × Nat) :=
  match old, kinds with
  | some x, _ => some x
  | none, k :: _ => some (k, owner)
  | none, [] => none

/-- The detections of one event for one carrier, latched together (R86, R87). -/
def latchCarrier (slot : Nat) (ds : List FaultDetail) (e : Event) : Event :=
  match e.s.floor.carrier slot with
  | none => e
  | some c =>
    let e' := e.onFloor fun ctx ev => ev.onFloor fun f => f.modCarrier slot (latchInto ctx.now ds)
    { e' with notices := { e'.notices with fault := firstFault (newKinds c ds) slot e.notices.fault } }

/-- The strongest action among kinds, by the settings now in force (R87, R89). -/
def strongest (p : Params) (kinds : List Nat) : Action :=
  if kinds.any fun k => p.action k == .haltAll then .haltAll
  else if kinds.any fun k => p.action k == .haltOne then .haltOne
  else .note

/-- The halt that an action of a carrier's own faults brings: in CONFIG and SERVICE, under HALT_ONE or
HALT_ALL (R90, R91), with its releases and examinations. -/
def actOnCarrier (slot : Nat) (a : Action) (e : Event) : Event :=
  if a ≠ .note ∧ (e.s.ctl.mode = .config ∨ e.s.ctl.mode = .service) then
    e.onFloor fun ctx ev => onActive slot (haltAlone ctx slot .halted .fault) ev
  else e

/-- The hold cause that a HALT_ALL action hands on: in SERVICE and HOLD (R90, R92, R93). -/
def actOnFloor (a : Action) (e : Event) : Event :=
  if a = .haltAll ∧ (e.s.ctl.mode = .service ∨ e.s.ctl.mode = .hold) then handCause causeFault e else e

/-- Latching and action of the faults that one event raises for one carrier (R87, R90 to R92). -/
def raiseFaults (slot : Nat) (ds : List FaultDetail) (e : Event) : Event :=
  match e.s.floor.carrier slot with
  | none => e
  | some c =>
    let a := strongest e.s.params (newKinds c ds)
    actOnFloor a (actOnCarrier slot a (latchCarrier slot ds e))

/-- MISMATCH for the carriers of a list, latched and acted on carrier by carrier, with cause FAULT handed
once (R99). -/
def raiseMismatch (cell : Nat) (slots : List Nat) (e : Event) : Event :=
  let a := e.s.params.mismatch
  let fresh := slots.filter fun x => match e.s.floor.carrier x with
    | some c => newKinds c [.mismatch cell] != []
    | none => false
  let e := fresh.foldl (fun e x => actOnCarrier x a (latchCarrier x [.mismatch cell] e)) e
  if fresh = [] then e else actOnFloor a e

/-- INTRUSION detected on a cell: latched when its record is clear, then acted on (R86, R93, R112). -/
def raiseIntrusion (cell : Nat) (e : Event) : Event :=
  match e.s.floor.cell cell with
  | none => e
  | some c =>
    if c.intrusion.isSome then e else
    let e' := e.onFloor fun ctx ev =>
      ev.onFloor fun f => f.modCell cell fun c => { c with intrusion := some ctx.now }
    actOnFloor e.s.params.intrusion
      { e' with notices := { e'.notices with fault := firstFault [6] cell e.notices.fault } }

/-! ## The close of an event -/

/-- The gridlock searches of an event, in SERVICE and COMMISSION alone, with the action of R133. -/
def closeGridlock (e : Event) : Event :=
  if e.s.ctl.mode = .service ∨ e.s.ctl.mode = .commission then
    let r := searches e.s.clock.siteTime e.s.floor (handed e.s.floor e.acc.examined)
    let e := { e with s := { e.s with floor := r.1 } }
    match r.2.created with
    | m :: _ =>
      let e := { e with notices := { e.notices with grid := some m } }
      if e.s.ctl.mode = .service ∧ e.s.params.gridlock = .haltAll then handCause causeFault e else e
    | [] => if r.2.overflowed then { e with notices := { e.notices with grid := some [] } } else e
  else e

/-- The recomputation that closes an event, on the state the whole event leaves (R82). -/
def closeReach (e : Event) : Event := e.onFloor fun ctx ev => ev.onFloor (recompute ctx ev.acc.dirty)

/-- The cuts of an event form one ROUTE event (R124). -/
def closeRoutes (e : Event) : Event := if e.acc.cuts = [] then e else e.routeEvent .carriers

/-- The close of an event. -/
def Event.close (e : Event) : Event := closeRoutes (closeReach (closeGridlock e))

/-! ## Notices (R163) -/

/-- A notice to be built: its class, with what it names. -/
inductive NoticeKind where
  | fault (kind owner : Nat)
  | mode
  | gridlock (members : List Nat)
  | route (source : RouteSource)
  deriving DecidableEq, Repr

/-- The notices that the events of a class bring, with the class afterwards; nothing without an event. -/
def classEvent (enabled : Bool) (event : Option NoticeKind) (c : NoticeClass) : List NoticeKind × NoticeClass :=
  match event with
  | none => ([], c)
  | some k => let r := noticeEvent enabled c; (if r.1 then [k] else [], r.2)

/-- The four classes with the events of one event taken, and the notices they bring, in the order FAULT,
MODE, GRIDLOCK, ROUTE (R163, entry 20). -/
def takeNotices (p : Params) (n : Notices) (c : NoticeClasses) : List NoticeKind × NoticeClasses :=
  let f := classEvent p.enableFault (n.fault.map fun x => .fault x.1 x.2) c.fault
  let m := classEvent p.enableMode (if n.mode then some .mode else none) c.mode
  let g := classEvent p.enableGridlock (n.grid.map .gridlock) c.gridlock
  let r := classEvent p.enableRoute (n.route.map .route) c.route
  (f.1 ++ m.1 ++ g.1 ++ r.1, ⟨f.2, m.2, g.2, r.2⟩)

/-- The kind byte of a notice (R163). -/
def NoticeKind.kind : NoticeKind → Byte
  | .fault _ _ => 0x41
  | .mode => 0x42
  | .gridlock _ => 0x43
  | .route _ => 0x44

/-- The carriers with the stalled or the route broken flag set (R17, R163). -/
def Floor.needRoute (f : Floor) : List (Nat × Carrier) := f.carriers.filter fun e => e.2.stalled || e.2.routeBroken

/-- The content of a notice after its summary status (R163). The one byte for the number of carriers in a ROUTE notice,
the member count as the only count and the bare owner of a FAULT notice are the model's choice (entry 12). -/
def NoticeKind.content (k : NoticeKind) (s : State) : List (Nat × Nat) :=
  match k with
  | .fault kind owner => [(1, kind), (if kind = 6 then 2 else 1, owner)]
  | .mode => [(1, s.ctl.mode.num), (1, s.ctl.causes.num), (1, s.ctl.lockdownCause.num)]
  | .gridlock m => (1, m.length) :: m.map fun x => (1, x)
  | .route .mapCheck => [(1, 0), (1, s.floor.mapState.num)]
  | .route .carriers => [(1, 1), (1, s.floor.needRoute.length)]

/-- A frame put into the transmit queue; it begins at once when nothing is being sent or waits (R160). After the reply
to an accepted Reset execute no frame begins: it waits, and the reset discards it (R141, R164, entry 9). -/
def putFrame (f : OutFrame) (l : LinkInterface) : LinkInterface :=
  if l.resetDue then { l with txQueue := l.txQueue ++ [f] } else
  match l.sending, l.txQueue with
  | none, [] => { l with sending := some (f, frameTenths f) }
  | _, q => { l with txQueue := q ++ [f] }

/-- A notice built from the state and put into the transmit queue (R161, R163). -/
def sendNotice (s : State) (k : NoticeKind) : State :=
  { s with link := putFrame ⟨0, k.kind, summary s :: numsBytes (k.content s), false⟩ s.link }

/-- The notices of an event sent, in order. -/
def sendNotices (s : State) (ks : List NoticeKind) : State := ks.foldl sendNotice s

/-- The state that an event of the part itself leaves: closed, its notices sent (R163). -/
def Event.finish (e : Event) : State :=
  let e := e.close
  let r := takeNotices e.s.params e.notices e.s.link.classes
  sendNotices { e.s with link := { e.s.link with classes := r.2 } } r.1

end Sys2Proof.Machine
end

