-- ==== Sys2Proof/Machine/Serve.lean ====
section
/-! DEFINITION. Serving a request: the order of its first judgements (R160), the reply (R160 to R162) and the
notices after it. -/

namespace Sys2Proof.Machine

/-- Requests are answered: the part is powered, its reset input is released and STARTUP is over (R140,
R141). -/
def State.ready (s : State) : Bool := s.clock.powered && !s.clock.resetHeld && s.ctl.mode != .startup

/-- The frame of a request taken from the front of the receive queue, with its armed mark; the queue is left
as it is, and the mark is absent, when the front is another frame (R159, entry 4). -/
def takeFrame (tag kind : Byte) (payload : List Byte) (s : State) : Bool × State :=
  match s.link.rxQueue with
  | f :: r =>
    if f.tag = tag ∧ f.kind = kind ∧ f.payload = payload then
      (f.armed, { s with link := { s.link with rxQueue := r } })
    else (false, s)
  | [] => (false, s)

/-- A request judged to its end: its event, the result code, the content that the owning rule names on the
state the event leaves, whether the reply is that of an accepted Reset execute, and what follows the building
of the reply. -/
structure Served where
  ev : Event
  code : Code
  content : State → List Item
  execReply : Bool
  after : State → State

/-- A request answered DONE. -/
def done (ev : Event) (content : State → List Item) : Served := ⟨ev, .done, content, false, id⟩

/-- A refused request: nothing has happened (R162). -/
def refused (s : State) (r : Refuse) : Served := ⟨Event.start s, r.code, fun _ => r.content, false, id⟩

/-- A reply built and put into the transmit queue; its building clears the receive-overflow flag it shows
(R159 to R162). -/
def sendReply (tag kind : Byte) (code : Code) (content : List Item) (exec : Bool) (s : State) : State :=
  let f : OutFrame := ⟨tag, kind ||| 0x80#8, summary s :: BitVec.ofNat 8 code.num :: replyContent content, exec⟩
  { s with link := putFrame f { s.link with rxOverflow := false } }

/-- The end of a served request: its event is closed, then come the reply and the notices (R160). -/
def Served.finish (tag kind : Byte) (v : Served) : State :=
  let e := v.ev.close
  let r := takeNotices e.s.params e.notices e.s.link.classes
  let s := { e.s with link := { e.s.link with classes := r.2 } }
  sendNotices (v.after (sendReply tag kind v.code (v.content s) v.execReply s)) r.1

/-- The judgement of a request: its tag, its length, BUSY during a map check (but for the exempt requests of
R12), then its own rule. -/
def judge {α : Type} (exempt : Bool) (parse : List Byte → Option α) (body : Bool → α → State → Except Refuse Served)
    (tag : Byte) (payload : List Byte) (armed : Bool) (s : State) : Except Refuse Served :=
  if tag = 0 then .error (refuse .badTag) else
  match parse payload with
  | none => .error (refuse .badLength)
  | some x => if !exempt && s.floor.mapState = .checking then .error (refuse .busy) else body armed x s

/-- A request served whole (R160); nothing happens while no request is answered. -/
def serve {α : Type} (kind : Byte) (exempt : Bool) (parse : List Byte → Option α)
    (body : Bool → α → State → Except Refuse Served) (tag : Byte) (payload : List Byte) (s : State) : State :=
  if !s.ready then s else
  let x := takeFrame tag kind payload s
  match judge exempt parse body tag payload x.1 x.2 with
  | .ok v => v.finish tag kind
  | .error r => (refused x.2 r).finish tag kind

/-- A condition of a request's rule: when it is met, the request is refused. -/
def refuseIf (b : Bool) (r : Refuse) : Except Refuse Unit := if b then .error r else .ok ()

/-- A refusal in LOCKDOWN. -/
def notInLockdown (s : State) : Except Refuse Unit := refuseIf (s.ctl.mode = .lockdown) (refuse .locked)

/-- A slot field above 47. -/
def slotField (field slot : Nat) : Except Refuse Unit := refuseIf (Config.slots ≤ slot) (badArgument field)

/-- The record that a cell id field names: refused above 383 and for an undefined cell (R18). -/
def cellField (field id : Nat) (s : State) : Except Refuse Cell :=
  if Config.cells ≤ id then .error (badArgument field) else
  match s.floor.cell id with
  | some c => .ok c
  | none => .error (badArgument 0xFF)

/-- The answer when the request changes nothing but its reply. -/
def answer (s : State) (content : State → List Item) : Except Refuse Served := .ok (done (Event.start s) content)

end Sys2Proof.Machine
end

