-- ==== Sys2Proof/Machine/MapRequests.lean ====
section
/-! DEFINITION. The requests of the Map Store and the Detector Filter: Define cell, Commit map, Lock layout,
Amend cell, Read cell, Read map state, Detector report and Declare clear. -/

namespace Sys2Proof.Machine

/-! ## Define cell (R6 to R8) -/

/-- The connection points of a kind, in the order of R2. -/
def CellKind.points : CellKind → List Point
  | .crossing => [.n, .e, .s, .w]
  | _ => [.a, .b]

/-- Whether a link field is absent or names an id in 0..383 and one of the six point names (R7). -/
def linkFieldOk (l : Option LinkField) : Bool :=
  match l with
  | none => true
  | some l => l.cell < Config.cells && (pointOfNum l.point).isSome

/-- An optional field that has to satisfy a test when it is given. -/
def fieldOk (o : Option Nat) (test : Nat → Bool) : Bool :=
  match o with
  | none => true
  | some v => test v

/-- A field that is given for a LANE alone (R7). -/
def laneField (isLane : Bool) (o : Option Nat) (test : Nat → Bool) : Bool := if isLane then fieldOk o test else o.isNone

/-- Whether a length lies in the range its kind allows (R1). -/
def lengthOk (kind : CellKind) (n : Nat) : Bool := 1000 ≤ n && n ≤ (if kind = .crossing then 5000 else 20000)

/-- The first field of Define cell that fails its check, by its position in the order of R1 (R6, R7). -/
def DefineCellFields.badField (f : DefineCellFields) : Option Nat :=
  let kind := kindOfNum f.kind
  let lane : Bool := f.kind = CellKind.num .lane
  let checks : List (Nat × Bool) := [(1, f.id < Config.cells),
    (2, kind.isSome),
    (3, kind.any fun k => lengthOk k f.length),
    (4, f.links.all linkFieldOk
        && (f.links.drop (kind.elim 0 fun k => k.points.length)).all Option.isNone),
    (5, laneField lane f.sense fun v => (senseOfNum v).isSome),
    (6, laneField lane f.convoy fun v => 1 ≤ v && v ≤ Config.convoyLimit),
    (7, fieldOk f.speedLimit fun v => 100 ≤ v && v ≤ 4000),
    (8, laneField lane f.keepClear fun v => v ≤ 1),
    (9, fieldOk f.detector fun v => v ≤ 1),
    (10, fieldOk f.closed fun v => v ≤ 1)]
  (checks.find? fun x => !x.2).map Prod.fst

/-- The links of a record, at the points of its kind. -/
def linksOf (points : List Point) (links : List (Option LinkField)) : List (Point × LinkRef) :=
  (points.zip links).filterMap fun x => x.2.bind fun l => (pointOfNum l.point).map fun q => (x.1, ⟨l.cell, q⟩)

/-- A yes or no field that may be omitted: no by default. -/
def yes (o : Option Nat) : Bool := o = some 1

/-- The traffic properties of a definition, with the defaults of R1. -/
def DefineCellFields.traffic (f : DefineCellFields) : Traffic :=
  { closed := yes f.closed
    speedLimit := f.speedLimit.getD 4000
    lane :=
      if f.kind = CellKind.num .lane then
        some { sense := (f.sense.bind senseOfNum).getD .both
               keepClear := yes f.keepClear
               convoy := f.convoy.getD 1 }
      else none }

/-- The record that Define cell stores; a redefined cell keeps its INTRUSION record (R8, R86). -/
def DefineCellFields.record (f : DefineCellFields) (old : Option Cell) : Cell :=
  let kind := (kindOfNum f.kind).getD .lane
  { kind := kind
    length := f.length
    links := linksOf kind.points f.links
    defined := f.traffic
    detector := yes f.detector
    live := f.traffic
    amendment := none
    holders := []
    lock := none
    waiting := match old with
      | some c => c.waiting
      | none => []
    raw := .unknown
    filtered := .unknown
    filterTimer := none
    absence := .idle
    confirmed := false
    sweepPending := false
    intrusion := old.bind (·.intrusion) }

/-- The cut of every route that contains a redefined cell, just before it (R8). -/
def cutRedefined (ctx : Ctx) (id : Nat) (ev : FloorEvent) : FloorEvent :=
  ev.fl.carriers.foldl (fun e x =>
    match x.2.place.bind fun pl => indexOfCell pl.ahead id with
    | none => e
    | some j => cutRoute ctx x.1 j e) ev

/-- The effect of an accepted Define cell (R8). -/
def defineEffect (f : DefineCellFields) (ctx : Ctx) (ev : FloorEvent) : FloorEvent :=
  let old := ev.fl.cell f.id
  let ev := ev.onFloor fun g => { g with mapState := .draft, cells := tset g.cells f.id (f.record old) }
  if old.isSome then cutRedefined ctx f.id ev else ev

/-- A refusal outside CONFIG: LOCKED in LOCKDOWN, else WRONG_MODE (R6, R10, R14). -/
def configOnly (s : State) : Except Refuse Unit := do
  notInLockdown s
  refuseIf (s.ctl.mode ≠ .config) (refuse .wrongMode)

/-- Define cell's own rule (R6). -/
def defineCellBody (_ : Bool) (f : DefineCellFields) (s : State) : Except Refuse Served := do
  configOnly s
  refuseIf s.floor.layoutLock (refuse .locked)
  match f.badField with
  | some n => .error (badArgument n)
  | none =>
    refuseIf ((s.floor.cell f.id).any fun c => c.holders != []) (refuse .wrongState)
    return done ((Event.start s).onFloor (defineEffect f)) fun _ => []

/-- DEFINE_CELL (R6). -/
def execDefineCell (tag : Byte) (payload : List Byte) (s : State) : Host.Outcome State Fault Refusal :=
  .next (serve 0x0B false parseDefineCell defineCellBody tag payload s)

/-! ## Commit map and Lock layout (R10, R12, R14) -/

/-- The state with a map check begun: it ends after at most 30 ms, when the free value says (R12, entry 3). -/
def beginCheck (s : State) : State :=
  { s with
    free := s.free + 1
    floor := { s.floor with
      mapState := .checking
      mapCheck := some ⟨s.clock.siteTime, min Config.checkBound (Config.checkDuration s.free)⟩ } }

/-- Commit map's own rule (R10). -/
def commitMapBody (_ : Bool) (_ : Unit) (s : State) : Except Refuse Served := do
  configOnly s
  refuseIf (s.floor.mapState ≠ .draft && s.floor.mapState ≠ .invalid) (refuse .wrongState)
  answer (beginCheck s) fun s => [.num 1 s.floor.mapState.num]

/-- COMMIT_MAP (R10). -/
def execCommitMap (tag : Byte) (payload : List Byte) (s : State) : Host.Outcome State Fault Refusal :=
  .next (serve 0x0C false parseNone commitMapBody tag payload s)

/-- Lock layout's own rule (R14). -/
def lockLayoutBody (_ : Bool) (_ : Unit) (s : State) : Except Refuse Served := do
  configOnly s
  refuseIf (s.floor.mapState ≠ .valid) (refuse .wrongState)
  answer { s with floor := { s.floor with layoutLock := true } } fun _ => []

/-- LOCK_LAYOUT (R14). -/
def execLockLayout (tag : Byte) (payload : List Byte) (s : State) : Host.Outcome State Fault Refusal :=
  .next (serve 0x0D false parseNone lockLayoutBody tag payload s)

/-! ## Amend cell (R118 to R121) -/

/-- The first field of Amend cell that fails its check, by its position in the request (R118, R119). -/
def AmendCellFields.badField (f : AmendCellFields) (c : Cell) : Option Nat :=
  let lane : Bool := c.kind = .lane
  let checks : List (Nat × Bool) := [(2, fieldOk f.closed fun v => v ≤ 1),
    (3, laneField lane f.sense fun v => (senseOfNum v).isSome),
    (4, fieldOk f.speedLimit fun v => 100 ≤ v && v ≤ 4000),
    (5, laneField lane f.keepClear fun v => v ≤ 1),
    (6, laneField lane f.convoy fun v => 1 ≤ v && v ≤ Config.convoyLimit && v ≤ c.length / 1000)]
  (checks.find? fun x => !x.2).map Prod.fst

/-- The partial record that Amend cell carries (R118). -/
def AmendCellFields.amendment (f : AmendCellFields) : Amendment :=
  { closed := f.closed.map (· == 1)
    sense := f.sense.bind senseOfNum
    speedLimit := f.speedLimit
    keepClear := f.keepClear.map (· == 1)
    convoy := f.convoy }

/-- An amendment that carries no field (R120). -/
def Amendment.isEmpty (a : Amendment) : Bool := a = ⟨none, none, none, none, none⟩

/-- Outcomes of a taken Amend cell (R120). -/
inductive AmendOutcome where
  | applied | pending | cancelled
  deriving DecidableEq, Repr

/-- The number of an outcome, in the order of R120. -/
def AmendOutcome.num : AmendOutcome → Nat
  | .applied => 0
  | .pending => 1
  | .cancelled => 2

/-- The outcome that the fields carried and the cell's holders give (R120). -/
def amendOutcome (a : Amendment) (c : Cell) : AmendOutcome :=
  if a.isEmpty then .cancelled else if c.holders = [] then .applied else .pending

/-- The effect of a taken Amend cell (R120, R121). -/
def amendEffect (id : Nat) (a : Amendment) (o : AmendOutcome) (ctx : Ctx) (ev : FloorEvent) : FloorEvent :=
  match o with
  | .applied => settle ctx (applyAmendment ctx id a ev)
  | .pending => ev.onFloor fun f => f.modCell id fun c => { c with amendment := some a }
  | .cancelled => ev.onFloor fun f => f.modCell id fun c => { c with amendment := none }

/-- An optional number of a width. -/
def optNum (w : Nat) (o : Option Nat) : List Item := optItems (o.map fun v => [.num w v])

/-- The fields of an amendment in a reply, each with its presence byte (entry 39). -/
def Amendment.items (a : Amendment) : List Item :=
  optNum 1 (a.closed.map boolNum) ++ optNum 1 (a.sense.map Sense.num) ++ optNum 2 a.speedLimit
    ++ optNum 1 (a.keepClear.map boolNum) ++ optNum 2 a.convoy

/-- Traffic properties in a reply: closed, sense, speed limit, keep-clear, convoy limit, those of a LANE with
their presence bytes. -/
def Traffic.items (t : Traffic) : List Item :=
  .num 1 (boolNum t.closed) :: optNum 1 (t.lane.map fun l => l.sense.num) ++ .num 2 t.speedLimit ::
    optNum 1 (t.lane.map fun l => boolNum l.keepClear) ++ optNum 2 (t.lane.map fun l => l.convoy)

/-- The live values of a cell in a reply. -/
def liveItems (s : State) (id : Nat) : List Item :=
  match s.floor.cell id with
  | some c => c.live.items
  | none => []

/-- Amend cell's own rule (R118, R120). The cuts and withdrawals in the reply are those of this application alone
(entry 37), and the number of passages withdrawn is one byte (entry 12). -/
def amendCellBody (_ : Bool) (f : AmendCellFields) (s : State) : Except Refuse Served := do
  notInLockdown s
  let c ← cellField 1 f.id s
  refuseIf (s.floor.mapState ≠ .valid) (refuse .wrongState)
  match f.badField c with
  | some n => .error (badArgument n)
  | none =>
    let a := f.amendment
    let o := amendOutcome a c
    let ev := (Event.start s).onFloor (amendEffect f.id a o)
    return done ev fun t =>
      .num 1 o.num :: optItems (c.amendment.map Amendment.items) ++ liveItems t f.id
        ++ [byteList (if o = .applied then ev.acc.cuts else []),
          .num 1 (if o = .applied then ev.acc.forbidden else 0)]

/-- AMEND_CELL (R118). -/
def execAmendCell (tag : Byte) (payload : List Byte) (s : State) : Host.Outcome State Fault Refusal :=
  .next (serve 0x0E false parseAmendCell amendCellBody tag payload s)

/-! ## Read cell and Read map state (R16, R17) -/

/-- A connection point in a reply: absent, or the neighbour id and point name (R16). -/
def pointItem (c : Cell) (p : Point) : List SubItem :=
  match c.links.find? fun x => x.1 == p with
  | some x => [.num 1 1, .num 2 x.2.cell, .num 1 x.2.point.num]
  | none => [.num 1 0]

/-- The connection points of a cell in a reply (R16). -/
def linkList (c : Cell) : Item := .list 1 c.kind.points.length (c.kind.points.map (pointItem c))

/-- The effective priority of a carrier's waiting passage (R16). -/
def effective (f : Floor) (slot : Nat) : Nat :=
  match (f.carrier slot).bind (·.passage) with
  | some p => p.priority
  | none => 0

/-- The content of Read cell for a defined cell (R16); where its presence bytes stand is the model's choice
(entry 39). -/
def cellItems (s : State) (c : Cell) : List Item :=
  [.num 1 1, .num 1 c.kind.num, .num 2 c.length, linkList c] ++ c.defined.items
    ++ [.num 1 (boolNum c.detector)] ++ c.live.items
    ++ optItems (c.amendment.map Amendment.items)
    ++ [byteList c.holders] ++ optNum 1 (c.lock.map Direction.num)
    ++ [.list 1 c.waiting.length (c.waiting.map fun x => [.num 1 x, .num 1 (effective s.floor x)]),
      .num 1 (boolNum c.confirmed), .num 1 (boolNum c.sweepPending)]
    ++ optNum 1 (if c.detector then some c.raw.num else none)
    ++ optNum 1 (if c.detector then some c.filtered.num else none)
    ++ [.num 1 (boolNum c.intrusion.isSome)]

/-- Read cell's own rule (R16). -/
def readCellBody (_ : Bool) (id : Nat) (s : State) : Except Refuse Served := do
  refuseIf (Config.cells ≤ id) (badArgument 1)
  answer s fun s => match s.floor.cell id with
    | none => [.num 1 0]
    | some c => cellItems s c

/-- READ_CELL (R16). -/
def execReadCell (tag : Byte) (payload : List Byte) (s : State) : Host.Outcome State Fault Refusal :=
  .next (serve 0x0F false parseCellId readCellBody tag payload s)

/-- The first-error record in a reply (R17); one presence byte stands before the whole record (entry 39). -/
def errorItems (e : Option MapError) : List Item :=
  optItems (e.map fun e => [.num 2 e.cell, .num 1 e.reason.num] ++ optNum 1 (e.point.map Point.num))

/-- The content of Read map state (R17). The two bytes of the number of defined cells are the model's choice
(entry 12). -/
def mapStateItems (f : Floor) : List Item :=
  .num 1 f.mapState.num :: errorItems f.firstError ++
    [.num 1 (boolNum f.layoutLock), .num 2 f.cells.length,
      cellList ((f.cells.filter fun e => e.2.amendment.isSome).map Prod.fst),
      .list 1 f.needRoute.length (f.needRoute.map fun e =>
        [.num 1 e.1, .num 1 (boolNum e.2.stalled), .num 1 (boolNum e.2.routeBroken)])]

/-- The state with the notice classes changed. -/
def State.onClasses (s : State) (g : NoticeClasses → NoticeClasses) : State :=
  { s with link := { s.link with classes := g s.link.classes } }

/-- Read map state's own rule (R17). -/
def readMapStateBody (_ : Bool) (_ : Unit) (s : State) : Except Refuse Served := do
  notInLockdown s
  answer (s.onClasses fun c => { c with route := rearmed }) fun s => mapStateItems s.floor

/-- READ_MAP_STATE (R17). -/
def execReadMapState (tag : Byte) (payload : List Byte) (s : State) : Host.Outcome State Fault Refusal :=
  .next (serve 0x10 false parseNone readMapStateBody tag payload s)

/-! ## Detector report and Declare clear (R106 to R110) -/

/-- The absence timer is offered a filtered level that has become EMPTY under a body (R108, R114). -/
def absenceOnEmpty (ctx : Ctx) (covered : Bool) (c : Cell) : Cell :=
  if covered && c.absence = .idle then { c with absence := absenceFrom ctx } else c

/-- The filtered level becomes EMPTY (R108). -/
def filteredEmpty (id : Nat) (ctx : Ctx) (ev : FloorEvent) : FloorEvent :=
  let ev := confirm id (ev.onFloor fun f => f.modCell id fun c => { c with filtered := .empty })
  settle ctx (ev.onFloor fun f => f.modCell id (absenceOnEmpty ctx (f.coverers id != [])))

/-- INTRUSION is detected on a cell that is confirmed, open and without holders (R112). -/
def intrusionTest (c : Cell) : Bool := c.confirmed && !c.live.closed && c.holders = []

/-- The filtered level is offered the raw level, at a filter expiry or with filter_time 0 (R107, R108). -/
def offerFiltered (id : Nat) (e : Event) : Event :=
  match e.s.floor.cell id with
  | none => e
  | some c =>
    if c.raw = c.filtered then e else
    match c.raw with
    | .empty => e.onFloor (filteredEmpty id)
    | .occ =>
      let e := e.onFloor fun _ ev => ev.onFloor fun f =>
        f.modCell id fun c => { c with filtered := .occ, absence := .idle }
      if intrusionTest c then raiseIntrusion id e else e
    | .unknown => e.onFloor fun _ ev => ev.onFloor fun f => f.modCell id fun c => { c with filtered := .unknown }

/-- The handling of an accepted detector report (R107). -/
def takeLevel (id : Nat) (l : Level) (e : Event) : Event :=
  match e.s.floor.cell id with
  | none => e
  | some c =>
    if c.raw = l then e else
    if e.s.params.filterTime = 0 then
      offerFiltered id (e.onFloor fun _ ev => ev.onFloor fun f => f.modCell id fun c => { c with raw := l })
    else
      e.onFloor fun ctx ev => ev.onFloor fun f => f.modCell id fun c =>
        { c with raw := l, filterTimer := some ⟨ctx.now, ctx.params.filterTime⟩ }

/-- The content of a detector report's reply (R106). -/
def detectorItems (s : State) (id : Nat) : List Item :=
  match s.floor.cell id with
  | none => []
  | some c => [.num 1 c.raw.num, .num 1 c.filtered.num, .num 1 (boolNum c.confirmed),
      .num 1 (boolNum c.intrusion.isSome)]

/-- Detector report's own rule (R106). A cell without a detector is named by field 1, the first of the two fields,
whatever the level (R162, entry 30). -/
def detectorReportBody (_ : Bool) (f : DetectorReportFields) (s : State) : Except Refuse Served := do
  let c ← cellField 1 f.id s
  let l := (levelOfNum f.level).getD .unknown
  refuseIf (!c.detector) (badArgument 1)
  refuseIf (l = .unknown) (badArgument 2)
  return done (takeLevel f.id l (Event.start s)) fun t => detectorItems t f.id

/-- DETECTOR_REPORT (R106). -/
def execDetectorReport (tag : Byte) (payload : List Byte) (s : State) : Host.Outcome State Fault Refusal :=
  .next (serve 0x11 false parseDetectorReport detectorReportBody tag payload s)

/-- Declare clear's own rule (R110). -/
def declareClearBody (_ : Bool) (id : Nat) (s : State) : Except Refuse Served := do
  notInLockdown s
  let c ← cellField 1 id s
  refuseIf (c.holders != []) (refuse .notVacant)
  refuseIf (c.detector && c.filtered = .occ) (refuse .notVacant)
  return done ((Event.start s).onFloor fun ctx ev => settle ctx (confirm id ev)) fun t =>
    [.num 1 (boolNum ((t.floor.cell id).any (·.confirmed)))]

/-- DECLARE_CLEAR (R110). -/
def execDeclareClear (tag : Byte) (payload : List Byte) (s : State) : Host.Outcome State Fault Refusal :=
  .next (serve 0x12 false parseCellId declareClearBody tag payload s)

end Sys2Proof.Machine
end

