-- ==== Sys2Proof/Machine/CarrierRequests.lean ====
section
/-! DEFINITION. The requests of the Carrier Table but Position report: Enrol, Place, Set route, Extend route,
Read carrier and Retire. -/

namespace Sys2Proof.Machine

/-! ## Enrol (R20, R21) -/

/-- The profile that Enrol stores (R21). -/
def EnrolFields.profile (f : EnrolFields) : Profile :=
  { length := f.length
    maxSpeed := min (max f.maxSpeed 100) 4000
    decel := f.decel
    priority := min f.priority 3 }

/-- Whether Enrol clamped a value (R21). -/
def EnrolFields.clamped (f : EnrolFields) : Bool :=
  f.profile.maxSpeed != f.maxSpeed || f.profile.priority != f.priority

/-- A carrier's record as Enrol creates it (R19). -/
def enrolled (p : Profile) : Carrier :=
  { state := .enrolled
    profile := p
    place := none
    ceiling := 0
    delivered := 0
    stalled := false
    routeBroken := false
    queueRefused := false
    haltedCause := .none
    reportTimer := none
    passage := none
    faults := [] }

/-- A profile in a reply. -/
def Profile.items (p : Profile) : List Item := [.num 2 p.length, .num 2 p.maxSpeed, .num 2 p.decel, .num 1 p.priority]

/-- A refusal in LOCKDOWN and in HOLD (R20, R23). -/
def notHeld (s : State) : Except Refuse Unit := do
  notInLockdown s
  refuseIf (s.ctl.mode = .hold) (refuse .wrongMode)

/-- Enrol's own rule (R20). -/
def enrolBody (_ : Bool) (f : EnrolFields) (s : State) : Except Refuse Served := do
  notHeld s
  slotField 1 f.slot
  refuseIf (s.floor.carrier f.slot).isSome (refuse .wrongState)
  refuseIf (f.length < 400 || 3000 < f.length) (badArgument 2)
  refuseIf (f.decel < 100 || 5000 < f.decel) (badArgument 4)
  let ev := (Event.start s).onFloor fun _ ev =>
    ev.onFloor fun g => { g with carriers := tset g.carriers f.slot (enrolled f.profile) }
  return { done ev (fun _ => f.profile.items) with code := if f.clamped then .clamped else .done }

/-- ENROL (R20). -/
def execEnrol (tag : Byte) (payload : List Byte) (s : State) : Host.Outcome State Fault Refusal :=
  .next (serve 0x13 false parseEnrol enrolBody tag payload s)

/-! ## Place (R23, R24) -/

/-- The placement that Place sets (R24). -/
def placedAt (now cell offset : Nat) (d : Direction) : Placement :=
  { head := ⟨cell, directionEntry d⟩
    offset := offset
    last := ⟨cell, offset, 0, true, now⟩
    ahead := []
    dest := some offset
    granted := 1
    trail := []
    reach := ⟨cell, offset⟩ }

/-- A carrier's record after Place (R24). -/
def placeCarrier (ctx : Ctx) (cell offset : Nat) (d : Direction) (c : Carrier) : Carrier :=
  { c with
    state := .active
    place := some (placedAt ctx.now cell offset d)
    reportTimer := if ctx.mode = .service ∨ ctx.mode = .commission then reportTimerFrom ctx else none }

/-- The effect of an accepted Place (R24, R65, R116). -/
def placeEffect (slot cell offset : Nat) (d : Direction) (ctx : Ctx) (ev : FloorEvent) : FloorEvent :=
  let ev := ev.onFloor fun f =>
    ((f.modCarrier slot (placeCarrier ctx cell offset d)).modCell cell
      (joinCell slot (directionEntry d))).modCell cell fun c => coverStart ctx { c with confirmed := true }
  settle ctx ((ev.toExamine [cell]).toRecompute [slot])

/-- The carrier of a slot in a given state, else WRONG_STATE. -/
def carrierWhere (s : State) (slot : Nat) (ok : Carrier → Bool) : Except Refuse Carrier :=
  match s.floor.carrier slot with
  | some c => if ok c then .ok c else .error (refuse .wrongState)
  | none => .error (refuse .wrongState)

/-- Place's own rule (R23). -/
def placeBody (_ : Bool) (f : PlaceFields) (s : State) : Except Refuse Served := do
  notHeld s
  slotField 1 f.slot
  let cell ← cellField 2 f.cell s
  refuseIf (directionOfNum f.direction).isNone (badArgument 3)
  let d := (directionOfNum f.direction).getD .aToB
  refuseIf (s.floor.mapState ≠ .valid) (refuse .wrongState)
  let c ← carrierWhere s f.slot fun c => c.state = .enrolled
  refuseIf (!cell.stands s.params.stopGap c.profile.length) (badArgument 2)
  refuseIf (f.offset < c.profile.length || cell.length < f.offset) (badArgument 4)
  refuseIf (!cell.admits (directionEntry d)) (badArgument 3)
  refuseIf (cell.live.closed || cell.intrusion.isSome || cell.holders != []) (refuse .wrongState)
  refuseIf (!cell.confirmed && cell.detector && cell.filtered = .empty) (refuse .wrongState)
  return done ((Event.start s).onFloor (placeEffect f.slot f.cell f.offset d)) fun _ => []

/-- PLACE (R23). -/
def execPlace (tag : Byte) (payload : List Byte) (s : State) : Host.Outcome State Fault Refusal :=
  .next (serve 0x14 false parsePlace placeBody tag payload s)

/-! ## Route validation (R27, R30) -/

/-- The conditions of a turnaround, on the carrier and its head cell (R30). -/
def mayTurn (cell : Cell) (pl : Placement) : Bool :=
  (cell.kind = .bay || cell.kind = .dock) && pl.last.standstill && pl.trail = [] && pl.granted = 1

/-- What the step at index `i` of a candidate is: its entry point, and whether the head turns around for it. -/
structure StepTaken where
  entry : Point
  turned : Bool
  deriving DecidableEq, Repr

/-- The step test of a candidate at index `i`, from the entry before it; at index 1 a U_TURN is offered to
the turnaround test (R27, R30). -/
def candidateStep (f : Floor) (pl : Placement) (i : Nat) (prev : Entry) (n : Nat) : Except RouteReason StepTaken :=
  match f.cell prev.cell, f.cell n with
  | some c, some _ =>
    match stepTest f c prev.entry n with
    | .notLinked => .error .notLinked
    | .senseForbidden => .error .senseForbidden
    | .legal p => .ok ⟨p, false⟩
    | .uTurn =>
      if i = 1 && mayTurn c pl then
        match stepTest f c (otherEnd prev.entry) n with
        | .notLinked => .error .notLinked
        | .uTurn => .error .uTurn
        | .senseForbidden => .error .senseForbidden
        | .legal p => .ok ⟨p, true⟩
      else .error .uTurn
  | _, _ => .error .notLinked

/-- A route reason turned into its refusal at an index. -/
def atIndex {α : Type} (i : Nat) (x : Except RouteReason α) : Except Refuse α := x.mapError fun r => routeRefused r i

/-- A route test at an index. -/
def routeIf (b : Bool) (r : RouteReason) (i : Nat) : Except Refuse Unit := refuseIf b (routeRefused r i)

/-- The tests of R27 on the entries from index `i` on, given the entries before (nearest first): the entries
with their entry points, and whether the head turns around. -/
def candidateEntries (f : Floor) (pl : Placement) :
    Nat → Entry → List Nat → List Nat → Except Refuse (List Entry × Bool)
  | _, _, _, [] => .ok ([], false)
  | i, prev, earlier, n :: rest => do
    routeIf (i < pl.granted && (pl.ahead[i - 1]?).any fun e => e.cell != n) .grantedChanged i
    routeIf (earlier.contains n || (pl.trail.map (·.cell)).contains n) .duplicate i
    let step ← atIndex i (candidateStep f pl i prev n)
    routeIf (pl.granted ≤ i && (f.cell n).any fun c => c.live.closed) .closedCell i
    routeIf ((f.cell n).any (fun c => c.kind = .dock) && rest != []) .dockInside i
    let (es, turned) ← candidateEntries f pl (i + 1) ⟨n, step.entry⟩ (n :: earlier) rest
    return (⟨n, step.entry⟩ :: es, step.turned || turned)

/-- The index of the eighth of eight consecutive entries, after the head cell, none of which is a stand place
(R27, test 5). -/
def eighthBarred (f : Floor) (stopGap length : Nat) : Nat → Nat → List Entry → Option Nat
  | _, _, [] => none
  | i, run, e :: r =>
    if f.stands stopGap length e.cell then eighthBarred f stopGap length (i + 1) 0 r
    else if run + 1 = Config.passageCells then some i
    else eighthBarred f stopGap length (i + 1) (run + 1) r

/-- A validated candidate: its entries ahead of the head, and whether the head turns around. -/
structure Candidate where
  ahead : List Entry
  turned : Bool
  deriving DecidableEq, Repr

/-- The validation of a candidate list with its destination offset (R27). A candidate that ends inside the
granted prefix is GRANTED_CHANGED at its end (entry 17). -/
def validate (s : State) (c : Carrier) (pl : Placement) (cells : List Nat) (dest : Option Nat) :
    Except Refuse Candidate := do
  let f := s.floor
  routeIf (Config.routeEntries < cells.length) .tooLong Config.routeEntries
  routeIf (cells.head? ≠ some pl.head.cell) .startMismatch 0
  let (es, turned) ← candidateEntries f pl 1 pl.head [pl.head.cell] (cells.drop 1)
  routeIf (cells.length < pl.granted) .grantedChanged cells.length
  let last := (es.getLastD pl.head).cell
  routeIf (!f.stands s.params.stopGap c.profile.length last) .badDestination es.length
  routeIf (!(dest.any fun d => c.profile.length ≤ d && d ≤ f.len last)) .badDestination es.length
  match eighthBarred f s.params.stopGap c.profile.length 1 0 es with
  | some i => .error (routeRefused .noStandPlace i)
  | none => return ⟨es, turned⟩

/-! ## Set route and Extend route (R28, R29) -/

/-- The head reflected by a turnaround (R30). -/
def reflect (cellLength : Nat) (c : Carrier) (pl : Placement) : Placement :=
  let offset := cellLength - pl.offset + c.profile.length
  { pl with
    head := ⟨pl.head.cell, otherEnd pl.head.entry⟩
    offset := offset
    reach := if c.state = .halted then ⟨pl.head.cell, offset⟩ else pl.reach }

/-- A carrier's record with its route replaced (R28 to R30). -/
def setRouteRecord (f : Floor) (k : Candidate) (dest : Option Nat) (c : Carrier) : Carrier :=
  { c.modPlace (fun pl =>
      let pl := if k.turned then reflect (f.len pl.head.cell) c pl else pl
      { pl with ahead := k.ahead, dest := dest }) with
    stalled := false
    routeBroken := false }

/-- Whether a new list keeps a waiting passage: it holds the passage's cells at the passage's indices (R28). -/
def keepsPassage (ahead : List Entry) (p : Passage) : Bool :=
  ((ahead.drop (p.index - 1)).take p.cells.length).map (·.cell) == p.cells.map (·.cell)

/-- The effect of an accepted Set route or Extend route (R28, R29). -/
def routeEffect (slot : Nat) (c : Carrier) (k : Candidate) (dest : Option Nat) (ctx : Ctx) (ev : FloorEvent) :
    FloorEvent :=
  let ev := ev.onFloor fun f => f.modCarrier slot (setRouteRecord f k dest)
  let ev := if c.passage.any fun p => !keepsPassage k.ahead p then withdraw slot ev else ev
  formAndSettle ctx slot (settle ctx (ev.toRecompute [slot]))

/-- The carrier of a request that changes a route: placed, and ACTIVE or HALTED, on a VALID map (R28). -/
def routedCarrier (s : State) (slot : Nat) : Except Refuse (Carrier × Placement) := do
  refuseIf (s.floor.mapState ≠ .valid) (refuse .wrongState)
  let c ← carrierWhere s slot fun c => c.state = .active || c.state = .halted
  match c.place with
  | some pl => .ok (c, pl)
  | none => .error (refuse .wrongState)

/-- Set route's own rule (R28). -/
def setRouteBody (_ : Bool) (f : SetRouteFields) (s : State) : Except Refuse Served := do
  notInLockdown s
  slotField 1 f.slot
  refuseIf (f.cells.any fun n => Config.cells ≤ n) (badArgument 2)
  let (c, pl) ← routedCarrier s f.slot
  let k ← validate s c pl f.cells (some f.dest)
  return done ((Event.start s).onFloor (routeEffect f.slot c k (some f.dest))) fun _ => []

/-- SET_ROUTE (R28). -/
def execSetRoute (tag : Byte) (payload : List Byte) (s : State) : Host.Outcome State Fault Refusal :=
  .next (serve 0x15 false parseSetRoute setRouteBody tag payload s)

/-- The destination offset of an Extend route's candidate: the one carried, else the current one (R29). -/
def extendDest (f : ExtendRouteFields) (pl : Placement) : Option Nat :=
  match f.dest with
  | some d => some d
  | none => pl.dest

/-- Extend route's own rule (R29). -/
def extendRouteBody (_ : Bool) (f : ExtendRouteFields) (s : State) : Except Refuse Served := do
  notInLockdown s
  slotField 1 f.slot
  refuseIf (f.cells.any fun n => Config.cells ≤ n) (badArgument 2)
  let (c, pl) ← routedCarrier s f.slot
  let dest := extendDest f pl
  let k ← validate s c pl (pl.head.cell :: pl.ahead.map (·.cell) ++ f.cells) dest
  return done ((Event.start s).onFloor (routeEffect f.slot c k dest)) fun _ => []

/-- EXTEND_ROUTE (R29). -/
def execExtendRoute (tag : Byte) (payload : List Byte) (s : State) : Host.Outcome State Fault Refusal :=
  .next (serve 0x16 false parseExtendRoute extendRouteBody tag payload s)

/-! ## Retire (R38, R39) -/

/-- The cells a carrier holds: trail, head cell and granted prefix (R43). -/
def Placement.held (pl : Placement) : List Nat :=
  pl.trail.map (·.cell) ++ pl.head.cell :: pl.grantedAhead.map (·.cell)

/-- The lane test of Retire: no lane the carrier holds has another carrier after it (R38). -/
def hasFollower (f : Floor) (slot : Nat) (pl : Placement) : Bool :=
  pl.held.any fun id => match f.cell id with
    | some c => c.kind = .lane && (afterIn c.holders slot).isSome
    | none => false

/-- Whether an ACTIVE or HALTED carrier is not standing (R38). -/
def movingNow (c : Carrier) : Bool :=
  (c.state = .active || c.state = .halted) && !(c.place.any fun pl => pl.last.standstill)

/-- The effect of an accepted Retire: the passage withdrawn, the covered cells marked for their sweep and every
held cell released, the slot emptied (R39, R113). The cells of the withdrawn passage and the released cells are examined
together, after all releases, which is the model's choice (entry 38). -/
def retireEffect (slot : Nat) (c : Carrier) (ctx : Ctx) (ev : FloorEvent) : FloorEvent :=
  let empty (ev : FloorEvent) : FloorEvent := ev.onFloor fun f => { f with carriers := tdel f.carriers slot }
  match c.place with
  | none => empty ev
  | some pl =>
    let covered := pl.covered ev.fl c.profile.length
    let ev := withdraw slot ev
    let ev := ev.onFloor fun f =>
      covered.foldl (fun g x => g.modCell x fun c => { c with sweepPending := true }) f
    let ev := empty (releaseAll ctx slot pl.held ev)
    settle ctx (ev.onFloor (coverChange ctx covered []))

/-- Retire's own rule (R38). -/
def retireBody (_ : Bool) (slot : Nat) (s : State) : Except Refuse Served := do
  notInLockdown s
  slotField 1 slot
  let c ← carrierWhere s slot fun _ => true
  refuseIf (movingNow c) (refuse .wrongState)
  refuseIf (c.place.any fun pl => hasFollower s.floor slot pl) (refuse .wrongState)
  return done ((Event.start s).onFloor (retireEffect slot c)) fun _ => []

/-- RETIRE (R38). -/
def execRetire (tag : Byte) (payload : List Byte) (s : State) : Host.Outcome State Fault Refusal :=
  .next (serve 0x19 false parseByte retireBody tag payload s)

/-! ## Read carrier (R40) -/

/-- An entry in a reply's list. -/
def Entry.subItems (e : Entry) : List SubItem := [.num 2 e.cell, .num 1 e.entry.num]

/-- A list of entries in a reply. -/
def entryList (l : List Entry) : Item := .list 1 l.length (l.map Entry.subItems)

/-- The trail in a reply, each entry marked covered (0) or held by margin (1) (R40). -/
def trailList (f : Floor) (pl : Placement) (length : Nat) : Item :=
  .list 1 pl.trail.length ((pl.trailS f).map fun x =>
    x.1.subItems ++ [.num 1 (boolNum (length ≤ x.2))])

/-- A position in a reply. -/
def Pos.items (p : Pos) : List Item := [.num 2 p.cell, .num 2 p.offset]

/-- The last report in a reply (R40). -/
def LastReport.items (l : LastReport) : List Item :=
  [.num 2 l.cell, .num 2 l.offset, .num 2 l.speed, .num 1 (boolNum l.standstill), .num 4 l.time]

/-- The waiting passage in a reply (R40). -/
def Passage.items (p : Passage) : List Item :=
  [entryList p.cells, .num 1 p.priority, .num 4 p.seq, .num 4 p.queued]

/-- Milliseconds until a timer's expiry in a reply, sent as absent when it is stopped (entry 39). -/
def timerItems (now : Nat) (t : Option Timer) : List Item := optNum 4 (t.map fun t => t.left now)

/-- The content of Read carrier for a slot that is not EMPTY (R40). The one byte of the granted count (entry 12) and the
one presence byte before each group of fields that a carrier may lack (entry 39) are the model's choice. -/
def carrierItems (s : State) (c : Carrier) : List Item :=
  let onPlace (g : Placement → List Item) : List Item := optItems (c.place.map g)
  .num 1 c.state.num :: c.profile.items
    ++ onPlace (fun pl => [.num 2 pl.head.cell, .num 2 pl.offset, .num 1 pl.head.entry.num])
    ++ onPlace (fun pl => pl.last.items)
    ++ onPlace (fun pl => [entryList (pl.head :: pl.ahead)])
    ++ optNum 2 (c.place.bind fun pl => pl.dest)
    ++ onPlace (fun pl => [.num 1 pl.granted])
    ++ onPlace (fun pl => [trailList s.floor pl c.profile.length])
    ++ onPlace (fun pl => pl.reach.items)
    ++ [.num 2 c.ceiling, .num 2 c.delivered, .num 1 (boolNum c.stalled), .num 1 (boolNum c.routeBroken),
      .num 1 (boolNum c.queueRefused), .num 1 c.haltedCause.num]
    ++ timerItems s.clock.siteTime c.reportTimer
    ++ optItems (c.passage.map Passage.items)
    ++ [byteList (c.faults.map Prod.fst)]

/-- Read carrier's own rule (R40). -/
def readCarrierBody (_ : Bool) (slot : Nat) (s : State) : Except Refuse Served := do
  slotField 1 slot
  answer s fun s => match s.floor.carrier slot with
    | none => [.num 1 0]
    | some c => carrierItems s c

/-- READ_CARRIER (R40). -/
def execReadCarrier (tag : Byte) (payload : List Byte) (s : State) : Host.Outcome State Fault Refusal :=
  .next (serve 0x18 false parseByte readCarrierBody tag payload s)

end Sys2Proof.Machine
end

