-- ==== Sys2Proof/Machine/PositionReport.lean ====
section
/-! DEFINITION. Position report: its acceptance (R33), the judgement of the reported head (R34 to R36, R96),
its consequences in their order (R37, R97, R103) and its reply (R166). -/

namespace Sys2Proof.Machine

/-! ## The judgement of the head -/

/-- Where a reported cell lies for a carrier (R34). -/
inductive HeadCase where
  | head
  | granted (k : Nat)
  | beyond (k : Nat)
  | trail
  | elsewhere
  deriving DecidableEq, Repr

/-- The case of a reported cell (R34). -/
def headCase (pl : Placement) (cell : Nat) : HeadCase :=
  if cell = pl.head.cell then .head else
  match indexOfCell pl.ahead cell with
  | some j => if j + 1 < pl.granted then .granted (j + 1) else .beyond (j + 1)
  | none => if (pl.trail.map (·.cell)).contains cell then .trail else .elsewhere

/-- The advance to a reported point in route entry `k`, at least 1 (R34). -/
def advanceTo (f : Floor) (pl : Placement) (k offset : Nat) : Nat := pl.near f k + offset

/-- The allowed advance of R35. -/
def allowedAdvance (p : Params) (maxSpeed now last : Nat) : Nat :=
  maxSpeed * min (elapsed now last) 60000 / 1000 + p.jumpAllowance

/-- The JUMP test of a measured advance (R35, R97). -/
def jumpTest (p : Params) (c : Carrier) (pl : Placement) (now advance : Nat) (r : PositionFields) :
    List FaultDetail :=
  let allowed := allowedAdvance p c.profile.maxSpeed now pl.last.time
  if allowed < advance then [.jump r.cell r.offset (some (advance, allowed))] else []

/-- The OVERRUN test of a head within the granted prefix, against the reach recorded before the report
(R36). -/
def overrunTest (f : Floor) (p : Params) (pl : Placement) (advance : Nat) (r : PositionFields) :
    List FaultDetail :=
  if (pl.aheadOf f pl.reach).getD 0 + p.overrunTolerance < advance then
    [.overrun r.cell r.offset (some pl.reach)]
  else []

/-- The faults that the reported head raises (R34 to R36, R97). -/
def headFaults (f : Floor) (p : Params) (c : Carrier) (pl : Placement) (now : Nat) (r : PositionFields) :
    List FaultDetail :=
  match headCase pl r.cell with
  | .head =>
    if pl.offset ≤ r.offset then
      overrunTest f p pl (r.offset - pl.offset) r ++ jumpTest p c pl now (r.offset - pl.offset) r
    else if pl.offset - r.offset ≤ p.jitterTolerance then []
    else [.regress r.cell r.offset]
  | .granted k =>
    overrunTest f p pl (advanceTo f pl k r.offset) r ++ jumpTest p c pl now (advanceTo f pl k r.offset) r
  | .beyond k => .overrun r.cell r.offset none :: jumpTest p c pl now (advanceTo f pl k r.offset) r
  | .trail => [.regress r.cell r.offset]
  | .elsewhere => [.jump r.cell r.offset none]

/-- The OVERSPEED test, of a carrier that is ACTIVE when the report arrives (R96). -/
def overspeedTest (p : Params) (c : Carrier) (r : PositionFields) : List FaultDetail :=
  if c.state = .active ∧ c.delivered + p.speedTolerance < r.speed then [.overspeed r.speed c.delivered] else []

/-- The head moved to route entry `k` at an offset: the entries passed join the trail in reverse order (R31). -/
def advanceHead (k offset : Nat) (pl : Placement) : Placement :=
  match k with
  | 0 => { pl with offset := offset }
  | j + 1 =>
    { pl with
      head := pl.ahead[j]?.getD pl.head
      offset := offset
      ahead := pl.ahead.drop (j + 1)
      granted := pl.granted - (j + 1)
      trail := (pl.head :: pl.ahead.take j).reverse ++ pl.trail }

/-- The placement with the head that a report leaves (R34). -/
def movedHead (f : Floor) (r : PositionFields) (pl : Placement) : Placement :=
  match headCase pl r.cell with
  | .head => if pl.offset ≤ r.offset then advanceHead 0 r.offset pl else pl
  | .granted k => advanceHead k r.offset pl
  | .beyond _ => advanceHead (pl.granted - 1) (f.len pl.lastGranted.cell) pl
  | .trail => pl
  | .elsewhere => pl

/-! ## The consequences in their order -/

/-- The acceptance of a report: last report, report timer, LOST to HALTED, report-since flags (R33, R86). -/
def acceptReport (ctx : Ctx) (r : PositionFields) (c : Carrier) : Carrier :=
  { c.modPlace (fun pl => { pl with last := ⟨r.cell, r.offset, r.speed, r.standstill, ctx.now⟩ }) with
    state := if c.state = .lost then .halted else c.state
    haltedCause := if c.state = .lost then .lapse else c.haltedCause
    reportTimer :=
      if ctx.mode = .service ∨ ctx.mode = .commission ∨ ctx.mode = .hold then reportTimerFrom ctx
      else c.reportTimer
    faults := c.faults.map fun x => (x.1, { x.2 with reportSince := true }) }

/-- A carrier's record with the head that a report leaves; the route index of a waiting passage stays equal to the
granted count, which counts from the head cell (R34, R48, entry 27). -/
def headMoved (f : Floor) (r : PositionFields) (c : Carrier) : Carrier :=
  let d := c.modPlace (movedHead f r)
  { d with passage := d.passage.map fun p => { p with index := d.place.elim p.index fun pl => pl.granted } }

/-- The head moved by a report, with the changes of coverage it brings (R31, R116). -/
def moveCarrier (slot : Nat) (r : PositionFields) (ctx : Ctx) (f : Floor) : Floor :=
  let before := match f.carrier slot with
    | some c => c.covered f
    | none => []
  let f := f.modCarrier slot (headMoved f r)
  match f.carrier slot with
  | some c => coverChange ctx before (c.covered f) f
  | none => f

/-- The trail entries that R32 keeps. -/
def keptTrail (f : Floor) (p : Params) (length : Nat) (pl : Placement) : List Entry :=
  ((pl.trailS f).filter fun x => x.2 < length + p.releaseMargin).map Prod.fst

/-- The trail entries that R32 releases. -/
def goneTrail (f : Floor) (p : Params) (length : Nat) (pl : Placement) : List Nat :=
  ((pl.trailS f).filter fun x => !(x.2 < length + p.releaseMargin)).map fun x => x.1.cell

/-- The trail releases after a change of the head (R32). -/
def trailRelease (slot : Nat) (ctx : Ctx) (ev : FloorEvent) : FloorEvent :=
  match ev.fl.carrier slot with
  | none => ev
  | some c =>
    match c.place with
    | none => ev
    | some pl =>
      let gone := goneTrail ev.fl ctx.params c.profile.length pl
      let kept := keptTrail ev.fl ctx.params c.profile.length pl
      releaseAll ctx slot gone (ev.onFloor fun f =>
        f.modCarrier slot fun c => c.modPlace fun pl => { pl with trail := kept })

/-- The return from HALTED to ACTIVE (R103). -/
def returnActive (ctx : Ctx) (standstill : Bool) (c : Carrier) : Carrier :=
  if c.state = .halted ∧ (ctx.mode = .service ∨ ctx.mode = .commission) ∧ haltingKinds ctx.params c = []
      ∧ standstill then
    { c with state := .active, haltedCause := .none }
  else c

/-- What follows the faults of a report: trail releases when the head moved, the return test, the formation
attempt, the recomputation of the carrier and of those it precedes (R37). -/
def afterFaults (slot : Nat) (moved standstill : Bool) (ctx : Ctx) (ev : FloorEvent) : FloorEvent :=
  let ev := if moved then settle ctx (trailRelease slot ctx ev) else ev
  let ev := ev.onFloor fun f => f.modCarrier slot (returnActive ctx standstill)
  let ev := formAndSettle ctx slot ev
  ev.toRecompute (slot :: followersOf ev.fl slot)

/-- The event of an accepted report (R33 to R37). -/
def reportEvent (r : PositionFields) (c : Carrier) (pl : Placement) (s : State) : Event :=
  let faults := overspeedTest s.params c r ++ headFaults s.floor s.params c pl s.clock.siteTime r
  let moved := (movedHead s.floor r pl).head != pl.head || (movedHead s.floor r pl).offset != pl.offset
  let e := (Event.start s).onFloor fun ctx ev => ev.onFloor fun f =>
    moveCarrier r.slot r ctx (f.modCarrier r.slot (acceptReport ctx r))
  (raiseFaults r.slot faults e).onFloor (afterFaults r.slot moved r.standstill)

/-! ## The reply (R166) -/

/-- The flags byte of the reply. -/
def reportFlags (c : Carrier) : Nat :=
  boolNum c.passage.isSome + 2 * boolNum c.stalled + 4 * boolNum c.routeBroken + 8 * c.haltedCause.num

/-- The content of the reply (R166). -/
def reportItems (s : State) (slot : Nat) : List Item :=
  match s.floor.carrier slot with
  | none => []
  | some c => [.num 1 c.state.num, .num 2 (c.place.elim 0 fun pl => pl.reach.cell),
      .num 2 (c.place.elim 0 fun pl => pl.reach.offset), .num 2 c.ceiling, .num 1 (reportFlags c)]

/-- The ceiling sent becomes the delivered ceiling (R83). -/
def deliver (slot : Nat) (s : State) : State :=
  { s with floor := s.floor.modCarrier slot fun c => { c with delivered := c.ceiling } }

/-- Position report's own rule (R33). -/
def positionReportBody (_ : Bool) (r : PositionFields) (s : State) : Except Refuse Served := do
  slotField 1 r.slot
  let cell ← cellField 2 r.cell s
  refuseIf (cell.length < r.offset) (badArgument 3)
  refuseIf (6000 < r.speed) (badArgument 4)
  let c ← carrierWhere s r.slot fun c => c.state != .enrolled
  match c.place with
  | none => .error (refuse .wrongState)
  | some pl => return { done (reportEvent r c pl s) (fun t => reportItems t r.slot) with after := deliver r.slot }

/-- POSITION_REPORT (R33). -/
def execPositionReport (tag : Byte) (payload : List Byte) (s : State) : Host.Outcome State Fault Refusal :=
  .next (serve 0x17 false parsePosition positionReportBody tag payload s)

end Sys2Proof.Machine
end

