-- ==== Sys2Proof/Machine/ModeRequests.lean ====
section
/-! DEFINITION. The requests of the Mode Controller and of the two-step reset: Set mode, Hold, Resume, Clear
hold count, Reset arm, Reset execute, Read status, Set parameter, Read parameter and Describe. -/

namespace Sys2Proof.Machine

/-! ## Set mode (R142 to R145) -/

/-- The slots of ACTIVE carriers whose last report does not carry standstill, rising (R142, R155). -/
def notStanding (f : Floor) : List Nat :=
  (f.carriers.filter fun e => e.2.state = .active && !(e.2.place.any fun pl => pl.last.standstill)).map Prod.fst

/-- The change from CONFIG to SERVICE or COMMISSION (R143). -/
def enterService (m : Mode) (e : Event) : Event :=
  let timer := linkTimerFrom e.s.ctx
  ((e.onCtl fun c => { c with mode := m, halt := false, linkTimer := timer }).onFloor fun ctx ev =>
    recomputeAll (ev.onFloor (startReportTimers ctx))).modeEvent

/-- The change between SERVICE and COMMISSION (R144). -/
def changeService (m : Mode) (e : Event) : Event :=
  ((e.onCtl fun c => { c with mode := m }).onFloor fun _ ev => recomputeAll ev).modeEvent

/-- A carrier's record with the granted count 1 (R62). -/
def grantedOne (c : Carrier) : Carrier := c.modPlace fun pl => { pl with granted := 1 }

/-- Every granted route entry ahead of a head cell is released, and every granted count becomes 1 (R62, R145); the
carriers are taken in increasing order of slot, which is the model's choice (entry 31). -/
def releaseAhead (ctx : Ctx) (ev : FloorEvent) : FloorEvent :=
  let old := ev.fl.carriers
  let ev := ev.onFloor fun f => { f with carriers := tmap f.carriers fun _ c => grantedOne c }
  old.foldl (fun e x => match x.2.place with
    | some pl => releaseAll ctx x.1 (pl.grantedAhead.map (·.cell)) e
    | none => e) ev

/-- The change from SERVICE or COMMISSION to CONFIG (R145). -/
def enterConfig (e : Event) : Event :=
  ((e.onCtl fun c => { c with mode := .config, halt := true, linkTimer := .stopped }).onFloor fun ctx ev =>
    settle ctx (recomputeAll ((releaseAhead ctx (withdrawAll ev)).onFloor stopReportTimers))).modeEvent

/-- The accepted change to a mode other than the current one (R142). -/
def changeMode (m : Mode) (e : Event) : Event :=
  if m = .config then enterConfig e
  else if e.s.ctl.mode = .config then enterService m e
  else changeService m e

/-- Set mode's own rule (R142). -/
def setModeBody (_ : Bool) (n : Nat) (s : State) : Except Refuse Served := do
  notInLockdown s
  match targetOfNum n with
  | none => .error (badArgument 1)
  | some m =>
    refuseIf (s.ctl.mode = .hold) (refuse .wrongMode)
    if m = s.ctl.mode then answer s fun _ => [] else
    refuseIf (s.ctl.mode = .config && s.floor.mapState ≠ .valid) (refuse .wrongState)
    refuseIf (m = .config && notStanding s.floor != []) ⟨.wrongState, [byteList (notStanding s.floor)]⟩
    return done (changeMode m (Event.start s)) fun _ => []

/-- SET_MODE (R142). -/
def execSetMode (tag : Byte) (payload : List Byte) (s : State) : Host.Outcome State Fault Refusal :=
  .next (serve 0x03 false parseByte setModeBody tag payload s)

/-! ## Hold, Resume, Clear hold count (R147, R149, R152) -/

/-- Hold's own rule (R147). -/
def holdBody (_ : Bool) (_ : Unit) (s : State) : Except Refuse Served := do
  notInLockdown s
  refuseIf (s.ctl.mode = .config) (refuse .wrongMode)
  if s.ctl.mode = .hold then answer s fun _ => [] else
  return done (handCause causeRequest (Event.start s)) fun _ => []

/-- HOLD (R147). -/
def execHold (tag : Byte) (payload : List Byte) (s : State) : Host.Outcome State Fault Refusal :=
  .next (serve 0x04 false parseNone holdBody tag payload s)

/-- The mode that Resume returns to (R152); the previous mode is never none in HOLD, and CONFIG stands in
(entry 23). -/
def PrevMode.mode : PrevMode → Mode
  | .service => .service
  | .commission => .commission
  | .none => .config

/-- The Mode Controller at an accepted Resume (R152). -/
def resumedCtl (c : ModeController) : ModeController :=
  { c with
    mode := c.previous.mode
    previous := .none
    causes := noCauses
    recovery := none
    halt := c.previous = .none }

/-- A slot with kinds in a list of a reply. -/
def kindsEntry (x : Nat × List Nat) : List SubItem :=
  [.num 1 x.1, .list x.2.length (x.2.map fun k => [(1, k)])]

/-- The blockers of a Resume: slots, kinds and cells, each list rising (R152, entry 33). -/
def blockerItems (p : Params) (f : Floor) : List Item :=
  [.list 1 (holdingCarriers p f).length ((holdingCarriers p f).map kindsEntry), cellList (holdingCells p f)]

/-- Resume's own rule (R152). -/
def resumeBody (_ : Bool) (_ : Unit) (s : State) : Except Refuse Served := do
  notInLockdown s
  refuseIf (s.ctl.mode ≠ .hold) (refuse .wrongMode)
  refuseIf (holdingFault s.params s.floor) ⟨.heldByFault, blockerItems s.params s.floor⟩
  let e := ((Event.start s).onCtl resumedCtl).onFloor fun _ ev => recomputeAll ev
  return done e.modeEvent fun t => [.num 1 t.ctl.mode.num]

/-- RESUME (R152). -/
def execResume (tag : Byte) (payload : List Byte) (s : State) : Host.Outcome State Fault Refusal :=
  .next (serve 0x05 false parseNone resumeBody tag payload s)

/-- Clear hold count's own rule (R149). -/
def clearHoldCountBody (_ : Bool) (_ : Unit) (s : State) : Except Refuse Served := do
  notInLockdown s
  answer { s with ctl := { s.ctl with holdCount := 0 } } fun _ => [.num 1 s.ctl.holdCount]

/-- CLEAR_HOLD_COUNT (R149). -/
def execClearHoldCount (tag : Byte) (payload : List Byte) (s : State) : Host.Outcome State Fault Refusal :=
  .next (serve 0x06 false parseNone clearHoldCountBody tag payload s)

/-! ## The two-step reset (R164) -/

/-- Reset arm's own rule: its serving changes nothing (R164). -/
def resetArmBody (_ : Bool) (_ : Unit) (s : State) : Except Refuse Served := answer s fun _ => []

/-- RESET_ARM (R164). -/
def execResetArm (tag : Byte) (payload : List Byte) (s : State) : Host.Outcome State Fault Refusal :=
  .next (serve 0x07 true parseNone resetArmBody tag payload s)

/-- Reset execute's own rule: NOT_ARMED when its frame is not marked armed (R164). -/
def resetExecuteBody (armed : Bool) (_ : Unit) (s : State) : Except Refuse Served := do
  refuseIf (!armed) (refuse .notArmed)
  return { done (Event.start s) (fun _ => [.num 1 ResetCause.request.num]) with execReply := true }

/-- RESET_EXECUTE (R164). -/
def execResetExecute (tag : Byte) (payload : List Byte) (s : State) : Host.Outcome State Fault Refusal :=
  .next (serve 0x08 true parseNone resetExecuteBody tag payload s)

/-! ## Read status (R155) -/

/-- The number of carriers in a state. -/
def countState (f : Floor) (st : CarrierState) : Nat := (f.carriers.filter fun e => e.2.state = st).length

/-- The link supervision timer in a reply: its state, and milliseconds until expiry when running (R155). The state byte
with STOPPED 0, RUNNING 1 and LAPSED 2, the order of R146, is the model's choice (entry 12). -/
def linkTimerItems (now : Nat) (t : LinkTimer) : List Item :=
  match t with
  | .stopped => .num 1 0 :: timerItems now none
  | .running t => .num 1 1 :: timerItems now (some t)
  | .lapsed => .num 1 2 :: timerItems now none

/-- The content of Read status (R155); hold_limit is a parameter value, four bytes (R165). That the HALT line
is 1 when asserted, and that the hold count and each of the four numbers of carriers by state are one byte, is the
model's choice (entry 12). -/
def statusItems (s : State) : List Item :=
  [.num 1 s.ctl.mode.num, .num 1 s.ctl.previous.num, .num 1 s.ctl.causes.num, .num 1 s.ctl.lockdownCause.num,
    .num 1 s.ctl.holdCount, .num 4 s.params.holdLimit]
    ++ timerItems s.clock.siteTime s.ctl.recovery
    ++ linkTimerItems s.clock.siteTime s.ctl.linkTimer
    ++ [.num 1 (boolNum s.ctl.halt), .num 1 s.ctl.resetCause.num, .num 4 s.clock.siteTime,
      .num 1 s.floor.mapState.num, .num 1 (countState s.floor .enrolled), .num 1 (countState s.floor .active),
      .num 1 (countState s.floor .halted), .num 1 (countState s.floor .lost), byteList (notStanding s.floor)]

/-- Read status's own rule (R155). -/
def readStatusBody (_ : Bool) (_ : Unit) (s : State) : Except Refuse Served :=
  answer (s.onClasses fun c => { c with mode := rearmed }) statusItems

/-- READ_STATUS (R155). -/
def execReadStatus (tag : Byte) (payload : List Byte) (s : State) : Host.Outcome State Fault Refusal :=
  .next (serve 0x02 true parseNone readStatusBody tag payload s)

/-! ## Set parameter and Read parameter (R168, R169) -/

/-- Whether a value of an action or an enable is allowed (R89, R168). -/
def valueAllowed (id v : Nat) : Bool :=
  if id ≤ 17 then true
  else if id ≤ 25 then (actionOfNum v).any fun a => actionAllowed (id - 18) a
  else v ≤ 1

/-- The carriers whose route a written stop_gap cuts: the route has a destination, and its last entry lies
beyond the head cell and is no stand place under the stored value (R168). -/
def stopGapCut (f : Floor) (p : Params) (c : Carrier) : Option Nat := do
  let pl ← c.place
  let e ← pl.ahead.getLast?
  if pl.dest.isSome && !f.stands p.stopGap c.profile.length e.cell then some (pl.ahead.length - 1) else none

/-- The cuts that a write of stop_gap brings (R168). -/
def stopGapCuts (ctx : Ctx) (ev : FloorEvent) : FloorEvent :=
  ev.fl.carriers.foldl (fun e x => match stopGapCut ev.fl ctx.params x.2 with
    | some j => cutRoute ctx x.1 j e
    | none => e) ev

/-- The parameters whose write recomputes every placed carrier: stop_gap, follow_gap, reaction_margin,
commission_speed (R81). -/
def recomputesAll (id : Nat) : Bool := id = 7 || id = 9 || id = 10 || id = 15

/-- The effect of a write on the floor (R168). -/
def writeEffect (id : Nat) (ctx : Ctx) (ev : FloorEvent) : FloorEvent :=
  let ev := if id = 7 then stopGapCuts ctx ev else ev
  if recomputesAll id then recomputeAll ev else ev

/-- The state with a parameter's value stored; a write of hold_limit clears the hold count (R149, R168). -/
def storeParam (id v : Nat) (s : State) : State :=
  { s with
    params := s.params.set id v
    ctl := { s.ctl with holdCount := if id = 6 then 0 else s.ctl.holdCount } }

/-- Set parameter's own rule (R168). -/
def setParameterBody (_ : Bool) (f : SetParameterFields) (s : State) : Except Refuse Served := do
  notInLockdown s
  refuseIf (f.id = 0 || 29 < f.id) (badArgument 1)
  refuseIf (f.id ≤ 17 && s.ctl.mode ≠ .config) (refuse .wrongMode)
  refuseIf (!valueAllowed f.id f.value) (badArgument 2)
  let old := s.params.get f.id
  let v := clampParam s.params f.id f.value
  let e := Event.start (storeParam f.id v s)
  let e := if v = old then e else e.onFloor (writeEffect f.id)
  return { done e (fun _ => [.num 4 old, .num 4 v]) with code := if v = f.value then .done else .clamped }

/-- SET_PARAMETER (R168). -/
def execSetParameter (tag : Byte) (payload : List Byte) (s : State) : Host.Outcome State Fault Refusal :=
  .next (serve 0x09 false parseSetParameter setParameterBody tag payload s)

/-- The gap flag: some value between the limits is not allowed (R169). -/
def gapFlag (id : Nat) : Bool := id = 24 || id = 25

/-- Read parameter's own rule (R169). -/
def readParameterBody (_ : Bool) (id : Nat) (s : State) : Except Refuse Served := do
  notInLockdown s
  refuseIf (id = 0 || 29 < id) (badArgument 1)
  answer s fun s => [.num 1 id, .num 4 (s.params.get id), .num 4 (paramRange id).1, .num 4 (paramRange id).2,
    .num 4 (paramDefault id), .num 1 (boolNum (gapFlag id))]

/-- READ_PARAMETER (R169). -/
def execReadParameter (tag : Byte) (payload : List Byte) (s : State) : Host.Outcome State Fault Refusal :=
  .next (serve 0x0A false parseByte readParameterBody tag payload s)

/-! ## Describe (R170) -/

/-- A text as a list of characters. -/
def textItem (codes : List Nat) : Item := byteList codes

/-- The text "Bewlane", one byte of ASCII code a character (R170, entry 12). -/
def familyText : List Nat := [0x42, 0x65, 0x77, 0x6C, 0x61, 0x6E, 0x65]

/-- The text "BL4126", one byte of ASCII code a character (R170, entry 12). -/
def partText : List Nat := [0x42, 0x4C, 0x34, 0x31, 0x32, 0x36]

/-- The capacities in the order of the Introduction's table (R170); their widths are the model's choice (entry 12). -/
def capacityItems : List Item :=
  .num 2 Config.cells :: [Config.slots, Config.routeEntries, Config.convoyLimit, Config.passageCells,
    Config.waitingPassages, Config.trailEntries, Config.gridlockRecords, Config.rxFrames].map fun n => .num 1 n

/-- The parameter ranges for identifiers 1 to 17 (R170). -/
def rangeItems : List Item :=
  (List.range 17).flatMap fun i =>
    [.num 4 (paramRange (i + 1)).1, .num 4 (paramRange (i + 1)).2, .num 4 (paramDefault (i + 1))]

/-- The content of Describe (R170); the revision is one byte (entry 12). -/
def describeItems (s : State) : List Item :=
  [textItem familyText, textItem partText, .num 1 1] ++ capacityItems ++ rangeItems
    ++ [.num 1 (boolNum s.floor.layoutLock), .num 1 s.floor.mapState.num, .num 1 s.ctl.resetCause.num,
      .num 1 s.link.rate.num]

/-- Describe's own rule (R170). -/
def describeBody (_ : Bool) (_ : Unit) (s : State) : Except Refuse Served := answer s describeItems

/-- DESCRIBE (R170). -/
def execDescribe (tag : Byte) (payload : List Byte) (s : State) : Host.Outcome State Fault Refusal :=
  .next (serve 0x01 true parseNone describeBody tag payload s)

end Sys2Proof.Machine
end

