-- ==== Sys2Proof/Machine/FaultRequests.lean ====
section
/-! DEFINITION. The requests of the Supervision Unit and the Gridlock Monitor: Read faults, Clear faults and
Read gridlocks; and the answer to an unknown request. -/

namespace Sys2Proof.Machine

/-! ## Read faults (R104) -/

/-- A position with its widths. -/
def posNums (cell offset : Nat) : List (Nat × Nat) := [(2, cell), (2, offset)]

/-- The detail of a carrier fault in a reply (R85, R97). That one presence byte stands before a JUMP's advance and
allowed advance together, and that the "beyond grant" of an OVERRUN is sent as an absent reach, is the model's choice
(entry 39); so are the four bytes of each advance (entry 12). -/
def FaultDetail.nums : FaultDetail → List (Nat × Nat)
  | .lapse t => [(4, t)]
  | .overspeed v d => [(2, v), (2, d)]
  | .overrun c o reach => posNums c o ++ match reach with
    | none => [(1, 0)]
    | some p => (1, 1) :: posNums p.cell p.offset
  | .regress c o => posNums c o
  | .jump c o adv => posNums c o ++ match adv with
    | none => [(1, 0)]
    | some (a, b) => [(1, 1), (4, a), (4, b)]
  | .mismatch c => [(2, c)]

/-- A latched carrier fault in a reply: kind, time, detail, current action setting, halting now (R104). -/
def faultNums (p : Params) (x : Nat × FaultRecord) : List (Nat × Nat) :=
  (1, x.1) :: (4, x.2.time) :: x.2.detail.nums
    ++ [(1, (p.action x.1).num), (1, boolNum (p.action x.1 != .note))]

/-- The latched faults of a carrier as an entry of a reply's list (R104). -/
def faultEntry (p : Params) (e : Nat × Carrier) : List SubItem :=
  [.num 1 e.1, .list e.2.faults.length (e.2.faults.map (faultNums p))]

/-- The carriers with at least one latched record, rising. -/
def faultyCarriers (f : Floor) : List (Nat × Carrier) := f.carriers.filter fun e => e.2.faults != []

/-- The INTRUSION records in a reply: cell id, time of latching, current setting (R104). -/
def intrusionEntries (p : Params) (f : Floor) : List (List SubItem) :=
  f.cells.filterMap fun e => e.2.intrusion.map fun t => [.num 2 e.1, .num 4 t, .num 1 p.intrusion.num]

/-- The content of Read faults (R104). The one byte of the number of gridlock records is the model's choice
(entry 12). -/
def faultsItems (s : State) : List Item :=
  [.list 1 (faultyCarriers s.floor).length ((faultyCarriers s.floor).map (faultEntry s.params)),
    .list 2 (intrusionEntries s.params s.floor).length (intrusionEntries s.params s.floor),
    .num 1 s.floor.gridlocks.length, .num 1 s.params.gridlock.num,
    .num 1 (boolNum (holdingFault s.params s.floor))]

/-- Read faults' own rule (R104). -/
def readFaultsBody (_ : Bool) (_ : Unit) (s : State) : Except Refuse Served :=
  answer (s.onClasses fun c => { c with fault := rearmed }) faultsItems

/-- READ_FAULTS (R104). -/
def execReadFaults (tag : Byte) (payload : List Byte) (s : State) : Host.Outcome State Fault Refusal :=
  .next (serve 0x1A false parseNone readFaultsBody tag payload s)

/-! ## Clear faults (R100 to R102) -/

/-- The last reported position lies in a held cell, and is behind the head or no farther ahead than the reach
plus overrun_tolerance (R101). The offset of a report that came before a turnaround is measured from the new entry end
(entry 35). -/
def overrunGone (f : Floor) (p : Params) (pl : Placement) : Bool :=
  pl.held.contains pl.last.cell &&
    match pl.aheadOf f ⟨pl.last.cell, pl.last.offset⟩ with
    | none => true
    | some d => d ≤ (pl.aheadOf f pl.reach).getD 0 + p.overrunTolerance

/-- Whether the condition of a latched carrier fault has gone (R101). -/
def conditionGone (f : Floor) (p : Params) (c : Carrier) (r : FaultRecord) : Bool :=
  match r.detail with
  | .lapse _ => r.reportSince
  | .overspeed _ _ => (c.place.elim 0 fun pl => pl.last.speed) ≤ c.ceiling + p.speedTolerance
  | .overrun _ _ _ => c.place.any fun pl => overrunGone f p pl
  | .regress _ _ => true
  | .jump _ _ _ => true
  | .mismatch id => !((f.cell id).any fun k => k.filtered = .empty) || !(c.covered f).contains id

/-- A carrier's record with the faults whose condition has gone unlatched (R100, R102). -/
def clearCarrier (f : Floor) (p : Params) (c : Carrier) : Carrier :=
  { c with faults := c.faults.filter fun x => !conditionGone f p c x.2 }

/-- Whether a cell's INTRUSION record is unlatched by a judgement now (R101). -/
def intrusionGone (c : Cell) : Bool := c.intrusion.isSome && c.filtered != .occ

/-- The judgement of a cell's INTRUSION record, with the examination its unlatching brings (R101, R102). -/
def clearCell (id : Nat) (ev : FloorEvent) : FloorEvent :=
  match ev.fl.cell id with
  | none => ev
  | some c =>
    if intrusionGone c then
      (ev.onFloor fun f => f.modCell id fun c => { c with intrusion := none }).toExamine [id]
    else ev

/-- The effect of Clear faults on its target: every judgement is made on the state as it is served (R100). -/
def clearEffect (t : ClearTarget) (ctx : Ctx) (ev : FloorEvent) : FloorEvent :=
  let f := ev.fl
  match t with
  | .slot n => ev.onFloor fun g => g.modCarrier n (clearCarrier f ctx.params)
  | .cell n => settle ctx (clearCell n ev)
  | .all =>
    let ev := ev.onFloor fun g => { g with carriers := tmap g.carriers fun _ c => clearCarrier f ctx.params c }
    settle ctx ((f.cells.map Prod.fst).foldl (fun e x => clearCell x e) ev)

/-- What remains latched within the target (R100). The one byte of the number of gridlock records is the model's choice
(entry 12). -/
def remainingItems (t : ClearTarget) (s : State) : List Item :=
  match t with
  | .slot n => [byteList (match s.floor.carrier n with
      | some c => c.faults.map Prod.fst
      | none => [])]
  | .cell n => [.num 1 (boolNum ((s.floor.cell n).any fun c => c.intrusion.isSome))]
  | .all => [.list 1 (faultyCarriers s.floor).length
        ((faultyCarriers s.floor).map fun e => kindsEntry (e.1, e.2.faults.map Prod.fst)),
      cellList (blockedCells s.floor), .num 1 s.floor.gridlocks.length]

/-- The check of the target's field (R100, R18). -/
def targetOk (t : ClearTarget) (s : State) : Except Refuse Unit :=
  match t with
  | .slot n => slotField 1 n
  | .cell n => (cellField 1 n s).map fun _ => ()
  | .all => .ok ()

/-- Clear faults' own rule (R100). -/
def clearFaultsBody (_ : Bool) (t : ClearTarget) (s : State) : Except Refuse Served := do
  notInLockdown s
  targetOk t s
  return done ((Event.start s).onFloor (clearEffect t)) (remainingItems t)

/-- CLEAR_FAULTS (R100). -/
def execClearFaults (tag : Byte) (payload : List Byte) (s : State) : Host.Outcome State Fault Refusal :=
  .next (serve 0x1B false parseClearTarget clearFaultsBody tag payload s)

/-! ## Read gridlocks (R135) -/

/-- A gridlock record as an entry of a reply's list (R131, R135). -/
def gridEntry (r : GridRecord) : List SubItem :=
  [.list r.members.length (r.members.map fun x => [(1, x)]),
    .list r.links.length (r.links.map fun l => [(2, l.cell), (1, l.wait.num)]),
    .num 4 r.time]

/-- The content of Read gridlocks, with the overflow flag as it stood before the request (R135). -/
def gridlockItems (overflow : Bool) (s : State) : List Item :=
  [.list 1 s.floor.gridlocks.length (s.floor.gridlocks.map gridEntry), .num 1 (boolNum overflow),
    .num 1 s.params.gridlock.num]

/-- Read gridlocks' own rule (R135). -/
def readGridlocksBody (_ : Bool) (_ : Unit) (s : State) : Except Refuse Served :=
  let t := s.onClasses fun c => { c with gridlock := rearmed }
  answer { t with floor := { t.floor with gridOverflow := false } } (gridlockItems s.floor.gridOverflow)

/-- READ_GRIDLOCKS (R135). -/
def execReadGridlocks (tag : Byte) (payload : List Byte) (s : State) : Host.Outcome State Fault Refusal :=
  .next (serve 0x1C false parseNone readGridlocksBody tag payload s)

/-! ## Unknown request (R160) -/

/-- Whether a kind is one of the 28 request kinds of R165. -/
def knownKind (kind : Byte) : Bool := 1 ≤ kind.toNat && kind.toNat ≤ 0x1C

/-- The answer to a request that no block owns: BAD_TAG for tag 0, else UNKNOWN_KIND (R160). -/
def unknownReply (tag kind : Byte) (payload : List Byte) (s : State) : State :=
  let x := takeFrame tag kind payload s
  (refused x.2 (refuse (if tag = 0 then .badTag else .unknownKind))).finish tag kind

/-- UNKNOWN_KIND_REQUEST (R160). A frame of a known kind with a tag other than 0 is no such request, and
nothing happens (entry 5). -/
def execUnknownKindRequest (tag kind : Byte) (payload : List Byte) (s : State) : Host.Outcome State Fault Refusal :=
  .next (if !s.ready || (tag != 0 && knownKind kind) then s else unknownReply tag kind payload s)

end Sys2Proof.Machine
end

