-- ==== Sys2Proof/Machine/ResetEvents.lean ====
section
/-! DEFINITION. The resets, the end of STARTUP and the supply: R13, R19, R66, R105, R126, R131, R137, R140,
R141, R156 to R164. -/

namespace Sys2Proof.Machine

/-! ## What a reset leaves -/

/-- A cell after a pin or request reset: its definition, live values and detector are kept (R13, R66, R86,
R105, R126). -/
def resetCell (c : Cell) : Cell :=
  { swept c with
    amendment := none
    holders := []
    lock := none
    waiting := []
    intrusion := none }

/-- The floor after a pin or request reset; a map check is abandoned (R13, R19, R66, R131). -/
def resetFloor (f : Floor) : Floor :=
  { mapState := if f.mapState = .checking then .draft else f.mapState
    firstError := if f.mapState = .checking then none else f.firstError
    layoutLock := f.layoutLock
    mapCheck := none
    cells := tmap f.cells fun _ c => resetCell c
    carriers := []
    queueSeq := 0
    gridlocks := []
    gridOverflow := false }

/-- The Mode Controller after a pin or request reset: the hold count is kept (R137). -/
def resetCtl (cause : ResetCause) (c : ModeController) : ModeController :=
  { powerOnCtl with holdCount := c.holdCount, resetCause := cause }

/-- The state after a pin or request reset (R140); the parameters and the line rate are kept. -/
def resetState (cause : ResetCause) (held : Bool) (s : State) : State :=
  { s with
    clock := ⟨s.clock.powered, held, 0⟩
    floor := resetFloor s.floor
    ctl := resetCtl cause s.ctl
    link := idleLink s.link.rate }

/-! ## The events -/

/-- POWER_ON_RESET: power is applied; the straps choose the line rate (R140, R156). -/
def execPowerOnReset (rate1 rate0 : Bool) (s : State) : Host.Outcome State Fault Refusal :=
  .next { State.reset with pending := s.pending, free := s.free, link := idleLink (rateOf rate1 rate0) }

/-- PIN_RESET: the reset input is asserted; a frame in transmission stops (R140, R156). -/
def execPinReset (s : State) : Host.Outcome State Fault Refusal :=
  .next (if s.clock.powered then resetState .pin true s else s)

/-- RESET_INPUT_RELEASE: the reset input is released, and the Site Clock begins to count (R140, R171). -/
def execResetInputRelease (s : State) : Host.Outcome State Fault Refusal :=
  .next (if s.clock.powered && s.clock.resetHeld then { s with clock := ⟨true, false, 0⟩ } else s)

/-- REQUEST_RESET: taken once the reply to an accepted Reset execute has been sent; a frame already begun is
finished (R140, R160, R164). -/
def execRequestReset (s : State) : Host.Outcome State Fault Refusal :=
  .next (if s.clock.powered && s.link.resetDue then
    let t := resetState .request s.clock.resetHeld s
    { t with link := { t.link with sending := s.link.sending } }
  else s)

/-- The length of STARTUP after the last reset (R141). -/
def startupTime (c : ResetCause) : Nat :=
  match c with
  | .powerOn => Config.startupPowerOn
  | _ => Config.startupOther

/-- The end of the STARTUP interval is due: power, reset input released, and the interval counted (R141). -/
def State.startupDue (s : State) : Bool :=
  s.clock.powered && !s.clock.resetHeld && s.ctl.mode = .startup
    && startupTime s.ctl.resetCause ≤ s.clock.siteTime

/-- STARTUP_END: the mode becomes CONFIG, a MODE event (R141). -/
def execStartupEnd (s : State) : Host.Outcome State Fault Refusal :=
  .next (if s.startupDue then
    (((Event.start s).onCtl fun c => { c with mode := .config }).modeEvent).finish
  else s)

/-- POWER_FAILURE: the supply goes; a frame in transmission stops where it is (R156, entry 10). -/
def execPowerFailure (s : State) : Host.Outcome State Fault Refusal :=
  .next { s with
    clock := { s.clock with powered := false }
    link := { s.link with sending := none } }

end Sys2Proof.Machine
end

