-- ==== Sys2Proof/Machine/LineEvents.lean ====
section
/-! DEFINITION. What the line brings: good frames, bad frames, invalid length bytes, framing errors and the gap
timer (R156 to R159, R164). -/

namespace Sys2Proof.Machine

/-- The receiver takes bytes: the part is powered and its reset input is released (R140). -/
def State.listening (s : State) : Bool := s.clock.powered && !s.clock.resetHeld

/-- Whether a good frame sets the reset-arm flag: Reset arm with a tag, an empty payload and room in the queue
(R164). -/
def armsReset (f : Frame) (room : Bool) : Bool := f.kind = 0x07 && f.tag != 0 && f.payload = [] && room

/-- Whether a good frame is marked armed: a Reset execute that is queued while the flag is set (R164). -/
def takesArm (f : Frame) (room armed : Bool) : Bool := f.kind = 0x08 && room && armed

/-- The Link Interface after a complete good frame: the reset-arm flag, then the queue or the overflow flag
(R159, R164). -/
def takeGood (f : Frame) (l : LinkInterface) : LinkInterface :=
  let room : Bool := l.rxQueue.length < Config.rxFrames
  { l with
    resetArm := armsReset f room
    rxQueue := if room then l.rxQueue ++ [{ f with armed := takesArm f room l.resetArm }] else l.rxQueue
    rxOverflow := l.rxOverflow || !room }

/-- The link supervision timer at a good frame: running or lapsed, it starts afresh (R146). -/
def restartLink (ctx : Ctx) : LinkTimer → LinkTimer
  | .stopped => .stopped
  | _ => linkTimerFrom ctx

/-- A complete good frame taken (R159); one whose start byte came in STARTUP is discarded whole (R141). -/
def takeFrameEvent (s : State) (f : RxFrame) : State :=
  if f.early || s.ctl.mode = .startup then s else
  { s with
    ctl := { s.ctl with linkTimer := restartLink s.ctx s.ctl.linkTimer }
    link := takeGood f.frame s.link }

/-- The gap timer after bytes from the line: running outside HUNT (R158). -/
def gapAfter (now : Nat) (r : Receiver) : Option Timer :=
  if r.phase = .hunt then none else some ⟨now, Config.gapTime⟩

/-- A run of bytes from the line, each passed to the receiver, with the frames it completes (R158). -/
def takeBytes (bytes : List Byte) (s : State) : State :=
  if bytes = [] then s else
  let r := rxBytes s.link.receiver (s.ctl.mode = .startup) bytes
  let s := { s with link := { s.link with receiver := r.1, gapTimer := gapAfter s.clock.siteTime r.1 } }
  r.2.foldl takeFrameEvent s

/-- Bytes from the line; while the reset input is held or the supply is off every byte is discarded (R140). -/
def lineBytes (bytes : List Byte) (s : State) : State := if s.listening then takeBytes bytes s else s

/-- The receiver discards a partial frame and returns to HUNT (R156, R158). -/
def dropPartial (s : State) : State := { s with link := { s.link with receiver := rxHunt, gapTimer := none } }

/-- GOOD_FRAME_TAKEN: bytes of the line that complete a good frame (R159). -/
def execGoodFrameTaken (bytes : List Byte) (s : State) : Host.Outcome State Fault Refusal :=
  .next (lineBytes bytes s)

/-- BAD_CRC_FRAME: bytes of the line that complete a frame with a bad CRC; the receiver rescans (R158). -/
def execBadCrcFrame (bytes : List Byte) (s : State) : Host.Outcome State Fault Refusal :=
  .next (lineBytes bytes s)

/-- INVALID_LENGTH_BYTE: bytes of the line that end in a length byte of 0, 1 or 251..255 (R158). -/
def execInvalidLengthByte (bytes : List Byte) (s : State) : Host.Outcome State Fault Refusal :=
  .next (lineBytes bytes s)

/-- FRAMING_ERROR_BYTE: bytes of the line and then a byte with a framing error, which is not passed on and
discards a frame being received (R156, R158). -/
def execFramingErrorByte (bytes : List Byte) (s : State) : Host.Outcome State Fault Refusal :=
  .next (if s.listening then dropPartial (takeBytes bytes s) else s)

/-- GAP_TIMER_EXPIRY: the partial frame is discarded (R158). -/
def execGapTimerExpiry (s : State) : Host.Outcome State Fault Refusal :=
  .next (if s.listening && timerDue s.link.gapTimer s.clock.siteTime then dropPartial s else s)

end Sys2Proof.Machine
end

