-- ==== Sys2Proof/Machine/TimerEvents.lean ====
section
/-! DEFINITION. The events of the part's timers: the end of the map check (R12), report timer (R25, R98), wait
limit and promotion (R57 to R59), filter and absence timers (R108, R115), link supervision (R146), the
recovery window (R151) and the wrap of the Site Clock (R171). An event whose timer is not due does not
happen, and the state stays as it is (entry 5). -/

namespace Sys2Proof.Machine

/-! ## Which events are due -/

/-- Events happen: the part is powered, its reset input released and STARTUP over. -/
def State.live (s : State) : Bool := s.ready

/-- A carrier's report timer has expired. -/
def reportDue (now : Nat) (c : Carrier) : Bool := timerDue c.reportTimer now

/-- A carrier's waiting passage has reached its wait limit (R57). -/
def waitDue (now : Nat) (c : Carrier) : Bool := c.passage.any fun p => p.waitPeriod ≤ elapsed now p.queued

/-- A carrier's waiting passage has reached its promotion (R57). -/
def promotionDue (now : Nat) (c : Carrier) : Bool :=
  c.passage.any fun p => p.promotePeriod.any fun t => t ≤ elapsed now p.queued

/-- A cell's filter timer has expired. -/
def filterDue (now : Nat) (c : Cell) : Bool := timerDue c.filterTimer now

/-- A cell's absence timer has expired (R114). -/
def absenceDue (now : Nat) (c : Cell) : Bool :=
  match c.absence with
  | .running t => t.due now
  | _ => false

/-- The link supervision timer has expired (R146). -/
def linkDue (s : State) : Bool :=
  match s.ctl.linkTimer with
  | .running t => t.due s.clock.siteTime
  | _ => false

/-- The recovery window has expired, in HOLD (R151). -/
def recoveryDue (s : State) : Bool := s.ctl.mode = .hold && timerDue s.ctl.recovery s.clock.siteTime

/-- An event of one carrier, when it is due. -/
def carrierEvent (s : State) (slot : Nat) (due : Nat → Carrier → Bool) (effect : Carrier → Event → Event) : State :=
  match s.floor.carrier slot with
  | some c => if s.live && due s.clock.siteTime c then (effect c (Event.start s)).finish else s
  | none => s

/-- An event of one cell, when it is due. -/
def cellEvent (s : State) (id : Nat) (due : Nat → Cell → Bool) (effect : Event → Event) : State :=
  match s.floor.cell id with
  | some c => if s.live && due s.clock.siteTime c then (effect (Event.start s)).finish else s
  | none => s

/-! ## The events -/

/-- The end of a map check (R11, R12). -/
def endCheck (s : State) : State :=
  let err := mapCheck s.floor
  { s with floor := { s.floor with
      mapState := if err = none then .valid else .invalid
      firstError := err
      mapCheck := none } }

/-- MAP_CHECK_END: the check ends, a ROUTE event (R12). -/
def execMapCheckEnd (s : State) : Host.Outcome State Fault Refusal :=
  .next (if s.live && s.floor.mapState = .checking then
    ((Event.start (endCheck s)).routeEvent .mapCheck).finish
  else s)

/-- The expiry of a carrier's report timer: LOST with its halt shrink, then LAPSE and its action (R25, R98). -/
def lapseEffect (slot : Nat) (c : Carrier) (e : Event) : Event :=
  let e := e.onFloor fun ctx ev => haltAlone ctx slot .lost .lapse
    (ev.onFloor fun f => f.modCarrier slot fun c => { c with reportTimer := none })
  raiseFaults slot [.lapse (c.place.elim 0 fun pl => pl.last.time)] e

/-- REPORT_TIMER_EXPIRY (R25). -/
def execReportTimerExpiry (slot : Nat) (s : State) : Host.Outcome State Fault Refusal :=
  .next (carrierEvent s slot reportDue (lapseEffect slot))

/-- The wait limit: the passage is withdrawn and the carrier is stalled, a ROUTE event (R59). -/
def waitLimitEffect (slot : Nat) (_ : Carrier) (e : Event) : Event :=
  (e.onFloor fun ctx ev => settle ctx ((withdraw slot ev).onFloor fun f =>
    f.modCarrier slot fun c => { c with stalled := true })).routeEvent .carriers

/-- WAIT_LIMIT (R59). -/
def execWaitLimit (slot : Nat) (s : State) : Host.Outcome State Fault Refusal :=
  .next (carrierEvent s slot waitDue (waitLimitEffect slot))

/-- PROMOTION (R58). -/
def execPromotion (slot : Nat) (s : State) : Host.Outcome State Fault Refusal :=
  .next (carrierEvent s slot promotionDue fun _ e => e.onFloor fun ctx ev => settle ctx (promote slot ev))

/-- The expiry of a filter timer: it stops, and the filtered level is offered the raw level (R108). -/
def filterEffect (id : Nat) (e : Event) : Event :=
  offerFiltered id (e.onFloor fun _ ev => ev.onFloor fun f => f.modCell id fun c => { c with filterTimer := none })

/-- FILTER_TIMER_EXPIRY (R108). -/
def execFilterTimerExpiry (cell : Nat) (s : State) : Host.Outcome State Fault Refusal :=
  .next (cellEvent s cell filterDue (filterEffect cell))

/-- The expiry of an absence timer: SPENT, and MISMATCH for every carrier whose body covers the cell (R114,
R115). -/
def absenceEffect (id : Nat) (e : Event) : Event :=
  let e := e.onFloor fun _ ev => ev.onFloor fun f => f.modCell id fun c => { c with absence := .spent }
  raiseMismatch id (e.s.floor.coverers id) e

/-- ABSENCE_TIMER_EXPIRY (R115). -/
def execAbsenceTimerExpiry (cell : Nat) (s : State) : Host.Outcome State Fault Refusal :=
  .next (cellEvent s cell absenceDue (absenceEffect cell))

/-- LINK_SUPERVISION_EXPIRY: LAPSED, and hold cause LINK is handed on (R146). -/
def execLinkSupervisionExpiry (s : State) : Host.Outcome State Fault Refusal :=
  .next (if s.live && linkDue s then
    (handCause causeLink ((Event.start s).onCtl fun c => { c with linkTimer := .lapsed })).finish
  else s)

/-- RECOVERY_WINDOW_EXPIRY: LOCKDOWN with cause WINDOW (R151). -/
def execRecoveryWindowExpiry (s : State) : Host.Outcome State Fault Refusal :=
  .next (if s.live && recoveryDue s then (enterLockdown .window (Event.start s)).finish else s)

/-- SITE_CLOCK_WRAP: after 4 294 967 295 the next value of the site time is 0 (R171). -/
def execSiteClockWrap (s : State) : Host.Outcome State Fault Refusal :=
  .next (if s.clock.powered && !s.clock.resetHeld && s.clock.siteTime + 1 = clockModulus then
    { s with clock := { s.clock with siteTime := 0 } }
  else s)

end Sys2Proof.Machine
end

