-- ==== Sys2Proof/Machine/Dispatch.lean ====
section
/-! DEFINITION. The one match over the commands: each arm calls its meaning. -/

namespace Sys2Proof.Machine

def exec (i : Instr) (s : State) : Host.Outcome State Fault Refusal :=
  match i with
  | .describe tag payload => Sys2Proof.Machine.execDescribe tag payload s
  | .readStatus tag payload => Sys2Proof.Machine.execReadStatus tag payload s
  | .setMode tag payload => Sys2Proof.Machine.execSetMode tag payload s
  | .hold tag payload => Sys2Proof.Machine.execHold tag payload s
  | .resume tag payload => Sys2Proof.Machine.execResume tag payload s
  | .clearHoldCount tag payload => Sys2Proof.Machine.execClearHoldCount tag payload s
  | .resetArm tag payload => Sys2Proof.Machine.execResetArm tag payload s
  | .resetExecute tag payload => Sys2Proof.Machine.execResetExecute tag payload s
  | .setParameter tag payload => Sys2Proof.Machine.execSetParameter tag payload s
  | .readParameter tag payload => Sys2Proof.Machine.execReadParameter tag payload s
  | .defineCell tag payload => Sys2Proof.Machine.execDefineCell tag payload s
  | .commitMap tag payload => Sys2Proof.Machine.execCommitMap tag payload s
  | .lockLayout tag payload => Sys2Proof.Machine.execLockLayout tag payload s
  | .amendCell tag payload => Sys2Proof.Machine.execAmendCell tag payload s
  | .readCell tag payload => Sys2Proof.Machine.execReadCell tag payload s
  | .readMapState tag payload => Sys2Proof.Machine.execReadMapState tag payload s
  | .detectorReport tag payload => Sys2Proof.Machine.execDetectorReport tag payload s
  | .declareClear tag payload => Sys2Proof.Machine.execDeclareClear tag payload s
  | .enrol tag payload => Sys2Proof.Machine.execEnrol tag payload s
  | .place tag payload => Sys2Proof.Machine.execPlace tag payload s
  | .setRoute tag payload => Sys2Proof.Machine.execSetRoute tag payload s
  | .extendRoute tag payload => Sys2Proof.Machine.execExtendRoute tag payload s
  | .positionReport tag payload => Sys2Proof.Machine.execPositionReport tag payload s
  | .readCarrier tag payload => Sys2Proof.Machine.execReadCarrier tag payload s
  | .retire tag payload => Sys2Proof.Machine.execRetire tag payload s
  | .readFaults tag payload => Sys2Proof.Machine.execReadFaults tag payload s
  | .clearFaults tag payload => Sys2Proof.Machine.execClearFaults tag payload s
  | .readGridlocks tag payload => Sys2Proof.Machine.execReadGridlocks tag payload s
  | .unknownKindRequest tag kind payload => Sys2Proof.Machine.execUnknownKindRequest tag kind payload s
  | .powerOnReset rate1 rate0 => Sys2Proof.Machine.execPowerOnReset rate1 rate0 s
  | .pinReset => Sys2Proof.Machine.execPinReset s
  | .resetInputRelease => Sys2Proof.Machine.execResetInputRelease s
  | .requestReset => Sys2Proof.Machine.execRequestReset s
  | .startupEnd => Sys2Proof.Machine.execStartupEnd s
  | .goodFrameTaken bytes => Sys2Proof.Machine.execGoodFrameTaken bytes s
  | .badCrcFrame bytes => Sys2Proof.Machine.execBadCrcFrame bytes s
  | .framingErrorByte bytes => Sys2Proof.Machine.execFramingErrorByte bytes s
  | .gapTimerExpiry => Sys2Proof.Machine.execGapTimerExpiry s
  | .mapCheckEnd => Sys2Proof.Machine.execMapCheckEnd s
  | .reportTimerExpiry slot => Sys2Proof.Machine.execReportTimerExpiry slot s
  | .waitLimit slot => Sys2Proof.Machine.execWaitLimit slot s
  | .promotion slot => Sys2Proof.Machine.execPromotion slot s
  | .filterTimerExpiry cell => Sys2Proof.Machine.execFilterTimerExpiry cell s
  | .absenceTimerExpiry cell => Sys2Proof.Machine.execAbsenceTimerExpiry cell s
  | .linkSupervisionExpiry => Sys2Proof.Machine.execLinkSupervisionExpiry s
  | .recoveryWindowExpiry => Sys2Proof.Machine.execRecoveryWindowExpiry s
  | .siteClockWrap => Sys2Proof.Machine.execSiteClockWrap s
  | .invalidLengthByte bytes => Sys2Proof.Machine.execInvalidLengthByte bytes s
  | .powerFailure => Sys2Proof.Machine.execPowerFailure s

end Sys2Proof.Machine
end

