-- ==== Sys2Proof/Machine/OwnActivity.lean ====
section
/-! DEFINITION. What the part does of itself when no command waits (entry 1): it takes a frame for serving
(R159), takes the reset after the reply to an accepted Reset execute (R164), puts the events that are due in the
command queue, or lets one millisecond pass: the Site Clock advances (R171) and the transmitter goes on (R156). -/

namespace Sys2Proof.Machine

/-! ## The transmitter -/

/-- The next frame of the transmit queue begins. -/
def beginNext (l : LinkInterface) : LinkInterface :=
  match l.txQueue with
  | [] => { l with sending := none }
  | f :: r => { l with sending := some (f, frameTenths f), txQueue := r }

/-- The transmitter over a time given in tenths of a bit: frames are sent whole and back to back; it stops after
the reply to an accepted Reset execute (R156, R164, entry 9). The first argument bounds the frames ended. -/
def transmit : Nat → Nat → LinkInterface → LinkInterface
  | 0, _, l => l
  | n + 1, tenths, l =>
    match l.sending with
    | none => l
    | some (f, left) =>
      if tenths < left then { l with sending := some (f, left - tenths) }
      else if f.execReply then { l with sending := none, resetDue := true }
      else transmit n (tenths - left) (beginNext l)

/-- The transmitter over one millisecond at the line rate. -/
def transmitMs (l : LinkInterface) : LinkInterface := transmit (l.txQueue.length + 1) l.rate.tenths l

/-! ## The events that fall due -/

/-- The events of one carrier that are due. -/
def carrierDue (now : Nat) (e : Nat × Carrier) : List Instr :=
  (if reportDue now e.2 then [.reportTimerExpiry e.1] else [])
    ++ (if waitDue now e.2 then [.waitLimit e.1] else [])
    ++ (if promotionDue now e.2 then [.promotion e.1] else [])

/-- The events of one cell that are due. -/
def cellDue (now : Nat) (e : Nat × Cell) : List Instr :=
  (if filterDue now e.2 then [.filterTimerExpiry e.1] else [])
    ++ (if absenceDue now e.2 then [.absenceTimerExpiry e.1] else [])

/-- The end of the map check is due (R12). -/
def checkDue (s : State) : Bool := s.floor.mapState = .checking && timerDue s.floor.mapCheck s.clock.siteTime

/-- The events of the floor and the modes that are due: after STARTUP alone (R141). -/
def liveDue (s : State) : List Instr :=
  if s.live then
    (if checkDue s then [.mapCheckEnd] else [])
      ++ (if linkDue s then [.linkSupervisionExpiry] else [])
      ++ (if recoveryDue s then [.recoveryWindowExpiry] else [])
      ++ s.floor.carriers.flatMap (carrierDue s.clock.siteTime)
      ++ s.floor.cells.flatMap (cellDue s.clock.siteTime)
  else []

/-- Every event that is due. -/
def dueEvents (s : State) : List Instr :=
  (if s.startupDue then [.startupEnd] else [])
    ++ (if timerDue s.link.gapTimer s.clock.siteTime then [.gapTimerExpiry] else [])
    ++ liveDue s

/-- The events due together in the order in which they are taken, and the model's counter after the choices:
which of several is taken next is a free value (entry 2). -/
def chosenOrder : Nat → Nat → List Instr → List Instr × Nat
  | 0, free, l => (l, free)
  | n + 1, free, l =>
    match l with
    | a :: b :: r =>
      let j := Config.eventChoice free l.length % l.length
      let rest := chosenOrder n (free + 1) ((a :: b :: r).eraseIdx j)
      ((a :: b :: r).getD j a :: rest.1, rest.2)
    | l => (l, free)

/-- The state with the events due put in the command queue. -/
def queueDue (s : State) : State :=
  let l := dueEvents s
  let r := chosenOrder l.length s.free l
  { s with pending := s.pending ++ r.1, free := r.2 }

/-! ## The part's own step -/

/-- A frame is a reply, not a notice: bit 7 of its kind is set (R160, R163). A reply of BAD_TAG has tag 0 as a
notice has. -/
def OutFrame.isReply (f : OutFrame) : Bool := f.kind.getLsbD 7

/-- The reply to an accepted Reset execute is being sent (R164). -/
def sendsReset (l : LinkInterface) : Bool := l.sending.any fun f => f.1.execReply

/-- A frame can be taken for serving: a request is answered, no reply waits to begin transmission (R159), and the reply
to an accepted Reset execute is not being sent: the reset discards the frames received by then (R164, entry 34). -/
def canServe (s : State) : Bool := s.ready && (s.link.txQueue.all fun f => !f.isReply) && !sendsReset s.link

/-- One millisecond: the Site Clock and the transmitter; after 4 294 967 295 the site time is 0 (R156, R171). -/
def tick (s : State) : State :=
  { s with
    clock := { s.clock with siteTime := (s.clock.siteTime + 1) % clockModulus }
    link := transmitMs s.link }

/-- The part's own step, for a part that is powered and whose reset input is released: the reset that is due, else
the events due at this site time, neither early nor late (R171), else a frame to be served, else one
millisecond. -/
def ownStep (s : State) : State :=
  if s.link.resetDue then { s with pending := [.requestReset] } else
  if dueEvents s ≠ [] then queueDue s else
  match s.link.rxQueue with
  | f :: _ => if canServe s then { s with pending := [decodeRequest f.tag f.kind f.payload] } else tick s
  | [] => tick s

/-- What the part does of itself: nothing without power or while the reset input is held (R140). -/
def ownActivity (s : State) : State := if s.listening then ownStep s else s

end Sys2Proof.Machine
end

