-- ==== Sys2Proof/WellFormed.lean ====
section
/-! DEFINITION. Which commands are well formed: what a frame can carry (R157), which slots and cells
exist (Introduction, Capacities), and which frames are an unknown request (R160). -/

namespace Sys2Proof

/-- The payload of a frame has 0 to 248 bytes (R157). -/
def payloadFits (p : List Byte) : Bool := p.length ≤ 248

/-- A request frame served by the block that owns its kind: a tag other than 0 (R160) and a payload
that fits a frame. -/
def requestWf (tag : Byte) (p : List Byte) : Bool := tag != 0 && payloadFits p

/-- Well-formedness of a command. -/
def Instr.wellFormed : Instr → Bool
  | .describe t p => requestWf t p
  | .readStatus t p => requestWf t p
  | .setMode t p => requestWf t p
  | .hold t p => requestWf t p
  | .resume t p => requestWf t p
  | .clearHoldCount t p => requestWf t p
  | .resetArm t p => requestWf t p
  | .resetExecute t p => requestWf t p
  | .setParameter t p => requestWf t p
  | .readParameter t p => requestWf t p
  | .defineCell t p => requestWf t p
  | .commitMap t p => requestWf t p
  | .lockLayout t p => requestWf t p
  | .amendCell t p => requestWf t p
  | .readCell t p => requestWf t p
  | .readMapState t p => requestWf t p
  | .detectorReport t p => requestWf t p
  | .declareClear t p => requestWf t p
  | .enrol t p => requestWf t p
  | .place t p => requestWf t p
  | .setRoute t p => requestWf t p
  | .extendRoute t p => requestWf t p
  | .positionReport t p => requestWf t p
  | .readCarrier t p => requestWf t p
  | .retire t p => requestWf t p
  | .readFaults t p => requestWf t p
  | .clearFaults t p => requestWf t p
  | .readGridlocks t p => requestWf t p
  | .unknownKindRequest t k p => (t == 0 || k == 0 || 0x1C#8 < k) && payloadFits p
  | .powerOnReset _ _ => true
  | .pinReset => true
  | .resetInputRelease => true
  | .requestReset => true
  | .startupEnd => true
  | .goodFrameTaken b => b ≠ []
  | .badCrcFrame b => b ≠ []
  | .framingErrorByte _ => true
  | .gapTimerExpiry => true
  | .mapCheckEnd => true
  | .reportTimerExpiry s => s < Config.slots
  | .waitLimit s => s < Config.slots
  | .promotion s => s < Config.slots
  | .filterTimerExpiry c => c < Config.cells
  | .absenceTimerExpiry c => c < Config.cells
  | .linkSupervisionExpiry => true
  | .recoveryWindowExpiry => true
  | .siteClockWrap => true
  | .invalidLengthByte b => b ≠ []
  | .powerFailure => true

end Sys2Proof
end

