-- ==== Sys2Proof/Safety.lean ====
section
/-! DEFINITION. What counts as a safe part, in the terms the statements use: the invariants that every step
keeps, what a command leaves alone, and what the host is told. -/

namespace Sys2Proof.Machine

/-! ## What the host is told -/

/-- The frames on their way to the host, the one being sent first (R160). -/
def outgoing (l : LinkInterface) : List OutFrame := l.sending.toList.map Prod.fst ++ l.txQueue

/-- The receive queue after a request was taken for serving: its frame leaves the front (R159). The queue stays as it
is when the front is another frame or nothing, a request put in the command queue by the sender (entry 4). -/
def restQueue (tag kind : Byte) (payload : List Byte) (q : List Frame) : List Frame :=
  match q with
  | f :: r => if f.tag = tag ∧ f.kind = kind ∧ f.payload = payload then r else f :: r
  | [] => []

/-- The summary status that the reply of a request shows: the state the request leaves, with the overflow flag
as it stood before the reply cleared it (R161). -/
def shown (s t : State) : Byte := summary { t with link := { t.link with rxOverflow := s.link.rxOverflow } }

/-- The reply of a request that takes `s` to `t` (R160 to R162). -/
def replyFrame (s t : State) (tag kind : Byte) (code : Code) (content : List Item) (exec : Bool) : OutFrame :=
  ⟨tag, kind ||| 0x80#8, shown s t :: BitVec.ofNat 8 code.num :: replyContent content, exec⟩

/-- What neither a reply nor a notice touches of the Link Interface. -/
structure LineKept (l m : LinkInterface) : Prop where
  rate : m.rate = l.rate
  receiver : m.receiver = l.receiver
  gapTimer : m.gapTimer = l.gapTimer
  resetArm : m.resetArm = l.resetArm
  resetDue : m.resetDue = l.resetDue

/-- A request answered: its frame has left the queue, where it stood at the front (entry 4), and one reply with its
code and content goes to the host, then the notices of its event (R159 to R162). -/
structure Answered (s t : State) (tag kind : Byte) (payload : List Byte) (code : Code) (content : List Item)
    (notices : List OutFrame) : Prop where
  sent : outgoing t.link = outgoing s.link ++ replyFrame s t tag kind code content false :: notices
  taken : t.link.rxQueue = restQueue tag kind payload s.link.rxQueue
  overflow : t.link.rxOverflow = false
  line : LineKept s.link t.link

/-- An event of the part itself told to the host: its notices alone. -/
structure Told (s t : State) (notices : List OutFrame) : Prop where
  sent : outgoing t.link = outgoing s.link ++ notices
  queue : t.link.rxQueue = s.link.rxQueue
  overflow : t.link.rxOverflow = s.link.rxOverflow
  line : LineKept s.link t.link

/-- A notice as it leaves the part in a state (R163). -/
def noticeFrame (t : State) (k : NoticeKind) : OutFrame := ⟨0, k.kind, summary t :: numsBytes (k.content t), false⟩

/-- The notices of one event of a class: one when the class is enabled and armed, else none (R163). -/
def noticesOf (enabled : Bool) (c : NoticeClass) (t : State) (k : NoticeKind) : List OutFrame :=
  if enabled && c.armed then [noticeFrame t k] else []

/-- The notices of a MODE event that takes `s` to `t` (R154, R163). -/
def modeNotices (s t : State) : List OutFrame := noticesOf s.params.enableMode s.link.classes.mode t .mode

/-- The notices of a ROUTE event that takes `s` to `t` (R163). -/
def routeNotices (s t : State) (r : RouteSource) : List OutFrame :=
  noticesOf s.params.enableRoute s.link.classes.route t (.route r)

/-- Notices alone: every frame of the list has tag 0 and a kind without bit 7, which every reply has (R160, R163). -/
def AllNotices (l : List OutFrame) : Prop := ∀ f ∈ l, f.tag = 0 ∧ f.kind.getLsbD 7 = false

/-- A notice class after an event of it: its armed flag is cleared by the notice sent, its withheld mark is set for a
notice not sent, and a class that is not enabled stays as it was (R163). -/
def classAfter (enabled : Bool) (c : NoticeClass) : NoticeClass :=
  if enabled then (if c.armed then ⟨false, c.withheld⟩ else ⟨false, true⟩) else c

/-! ## What a command leaves alone -/

/-- The queue of commands, the model's counter, the clock and the parameters are as they were. -/
structure SamePart (s t : State) : Prop where
  pending : t.pending = s.pending
  free : t.free = s.free
  clock : t.clock = s.clock
  params : t.params = s.params

/-- Nothing but the Link Interface has changed. -/
def OnlyLink (s t : State) : Prop := t = { s with link := t.link }

/-- The definition of a cell: what Define cell alone writes (R1). -/
def Cell.definition (c : Cell) : CellKind × Nat × List (Point × LinkRef) × Traffic × Bool :=
  (c.kind, c.length, c.links, c.defined, c.detector)

/-- Every cell keeps its definition, and no cell becomes defined or undefined. -/
def DefinitionsKept (f g : Floor) : Prop := ∀ id, (g.cell id).map Cell.definition = (f.cell id).map Cell.definition

/-- What only a carrier's own requests and faults write: its profile, its faults, its delivered ceiling, its
head, last report and trail. -/
def Carrier.own (c : Carrier) : Profile × Table FaultRecord × Nat × Option (Entry × Nat × LastReport × List Entry) :=
  (c.profile, c.faults, c.delivered, c.place.map fun p => (p.head, p.offset, p.last, p.trail))

/-- Every carrier but those of the listed slots keeps what is its own. -/
def OthersKept (slots : List Nat) (f g : Floor) : Prop :=
  ∀ x, x ∉ slots → (g.carrier x).map Carrier.own = (f.carrier x).map Carrier.own

/-- A command is answered with a code and a content, and changes nothing else: no state but the Link Interface's
queues, and no notice class (R160, R162). -/
def AnswersOnly (c : Instr) (s : State) (tag kind : Byte) (payload : List Byte) (code : Code) (content : List Item) :
    Prop :=
  ∃ t, exec c s = .next t ∧ OnlyLink s t ∧ t.link.classes = s.link.classes ∧
    Answered s t tag kind payload code content []

/-- No GRIDLOCK fault takes the part into HOLD: the mode is not SERVICE, or GRIDLOCK is not set to HALT_ALL
(R133). -/
def GridQuiet (s : State) : Prop := s.ctl.mode = .service → s.params.gridlock ≠ .haltAll

/-! ## What a payload spells -/

/-- Whether the payload of a request has the length and the presence bytes that its kind calls for (R160). -/
def payloadReads (kind : Byte) (p : List Byte) : Bool :=
  match kind.toNat with
  | 0x03 | 0x0A | 0x18 | 0x19 => (parseByte p).isSome
  | 0x09 => (parseSetParameter p).isSome
  | 0x0B => (parseDefineCell p).isSome
  | 0x0E => (parseAmendCell p).isSome
  | 0x0F | 0x12 => (parseCellId p).isSome
  | 0x11 => (parseDetectorReport p).isSome
  | 0x13 => (parseEnrol p).isSome
  | 0x14 => (parsePlace p).isSome
  | 0x15 => (parseSetRoute p).isSome
  | 0x16 => (parseExtendRoute p).isSome
  | 0x17 => (parsePosition p).isSome
  | 0x1B => (parseClearTarget p).isSome
  | _ => (parseNone p).isSome

/-! ## Steps and coverage -/

/-- A link by which a carrier that entered a cell at a point leaves it for a cell: the first, in the order of the
connection points, that names the cell and is not at the point of entry (R4, entry 28). -/
def IsExit (c : Cell) (entry : Point) (n : Nat) (x : Point × LinkRef) : Prop :=
  x ∈ c.links ∧ x.2.cell = n ∧ x.1 ≠ entry ∧ ∀ y ∈ c.links, y.2.cell = n → y.1 ≠ entry → x.1.num ≤ y.1.num

/-- The live sense of a cell permits the direction of an entry point; only a LANE has a sense (R3, R4). -/
def SenseAllows (f : Floor) (n : Nat) (entry : Point) : Prop :=
  ∀ d l, f.cell n = some d → d.live.lane = some l → l.sense = .both ∨ l.sense = if entry = .b then .bToA else .aToB

/-- The body of a placed carrier covers a cell: its head cell, or a trail cell with s, the head offset and the lengths of
the trail cells nearer than it, below the carrier's length (R31). -/
def BodyCovers (f : Floor) (c : Carrier) (id : Nat) : Prop :=
  ∃ pl, c.place = some pl ∧ (pl.head.cell = id ∨ ∃ i e, pl.trail[i]? = some e ∧ e.cell = id ∧
    pl.offset + f.lenSum (pl.trail.take i) < c.profile.length)

/-- The absence timer of a cell that a body has come to cover: it starts where it was IDLE and the filtered level is
EMPTY, or was SPENT; a cell without a detector has none (R114). -/
def absenceCovered (s : State) (c : Cell) : Absence :=
  if c.detector = true ∧ (c.absence = .spent ∨ (c.absence = .idle ∧ c.filtered = .empty)) then
    .running ⟨s.clock.siteTime, s.params.absenceTime⟩ else c.absence

/-! ## When an event of the part is due -/

/-- A timer has reached its period (R171). -/
def Expired (s : State) (w : Timer) : Prop := w.period ≤ elapsed s.clock.siteTime w.start

/-- Which events are due in a part that is powered and out of reset: the end of STARTUP after 40 ms, or 10 ms after a
reset other than power-on (R141); the gap timer (R158); and after STARTUP the end of a map check (R12), the link
supervision timer (R146), the recovery window in HOLD (R151), the report timers (R25), the wait limits and
promotions (R57), the filter and the absence timers (R108, R115). -/
def EventDue (s : State) : Instr → Prop
  | .startupEnd => s.ctl.mode = .startup ∧ (if s.ctl.resetCause = .powerOn then 40 else 10) ≤ s.clock.siteTime
  | .gapTimerExpiry => ∃ w, s.link.gapTimer = some w ∧ Expired s w
  | .mapCheckEnd => s.ctl.mode ≠ .startup ∧ s.floor.mapState = .checking ∧ ∃ w, s.floor.mapCheck = some w ∧ Expired s w
  | .linkSupervisionExpiry => s.ctl.mode ≠ .startup ∧ ∃ w, s.ctl.linkTimer = .running w ∧ Expired s w
  | .recoveryWindowExpiry => s.ctl.mode = .hold ∧ ∃ w, s.ctl.recovery = some w ∧ Expired s w
  | .reportTimerExpiry n => s.ctl.mode ≠ .startup ∧ ∃ c w, (n, c) ∈ s.floor.carriers ∧ c.reportTimer = some w ∧ Expired s w
  | .waitLimit n => s.ctl.mode ≠ .startup ∧ ∃ c p, (n, c) ∈ s.floor.carriers ∧ c.passage = some p ∧
      p.waitPeriod ≤ elapsed s.clock.siteTime p.queued
  | .promotion n => s.ctl.mode ≠ .startup ∧ ∃ c p k, (n, c) ∈ s.floor.carriers ∧ c.passage = some p ∧
      p.promotePeriod = some k ∧ k ≤ elapsed s.clock.siteTime p.queued
  | .filterTimerExpiry n => s.ctl.mode ≠ .startup ∧ ∃ c w, (n, c) ∈ s.floor.cells ∧ c.filterTimer = some w ∧ Expired s w
  | .absenceTimerExpiry n => s.ctl.mode ≠ .startup ∧ ∃ c w, (n, c) ∈ s.floor.cells ∧ c.absence = .running w ∧ Expired s w
  | _ => False

/-! ## Invariants -/

/-- The fields of the Mode Controller agree with the mode (R137, R139, R146, R148, R149, R151 to R153). -/
structure ModeConsistent (s : State) : Prop where
  halt : s.ctl.halt = false ↔ s.ctl.mode = .service ∨ s.ctl.mode = .commission
  previous : s.ctl.previous ≠ .none ↔ s.ctl.mode = .hold
  causes : s.ctl.causes ≠ noCauses ↔ s.ctl.mode = .hold ∨ s.ctl.mode = .lockdown
  lockdown : s.ctl.lockdownCause ≠ .none ↔ s.ctl.mode = .lockdown
  recovery : s.ctl.recovery.isSome = true ↔ s.ctl.mode = .hold
  linkTimer : s.ctl.linkTimer = .stopped ↔
    s.ctl.mode = .startup ∨ s.ctl.mode = .config ∨ s.ctl.mode = .lockdown
  count : s.ctl.holdCount < s.params.holdLimit

/-- Every parameter lies within its limits, absence_time exceeds filter_time by at least 100 ms, and no
HALT_ONE is set for INTRUSION or GRIDLOCK (R85, R117, R167). -/
structure ParamsInRange (p : Params) : Prop where
  low : ∀ id, 1 ≤ id → id ≤ 29 → (paramRange id).1 ≤ p.get id
  high : ∀ id, 1 ≤ id → id ≤ 29 → p.get id ≤ (paramRange id).2
  apart : p.filterTime + 100 ≤ p.absenceTime
  intrusion : p.intrusion ≠ .haltOne
  gridlock : p.gridlock ≠ .haltOne

/-- The stores keep their canonical form and their capacities, a carrier has a position exactly when it is not
ENROLLED, a cell has lane properties exactly when it is a LANE, and its links stand at connection points of its kind, at
most one at each and in their order (Introduction, R1, R2, R19, R86, R131, R159, R171). -/
structure StoresCanonical (s : State) : Prop where
  cells : tableWf Config.cells s.floor.cells = true
  carriers : tableWf Config.slots s.floor.carriers = true
  faults : ∀ x c, s.floor.carrier x = some c → tableWf 6 c.faults = true
  placed : ∀ x c, s.floor.carrier x = some c → (c.state = .enrolled ↔ c.place = none)
  enrolled : ∀ x c, s.floor.carrier x = some c → c.place = none → c.passage = none ∧ c.ceiling = 0
  lanes : ∀ id c, s.floor.cell id = some c →
    (c.live.lane.isSome = true ↔ c.kind = .lane) ∧ (c.defined.lane.isSome = true ↔ c.kind = .lane)
  links : ∀ id c, s.floor.cell id = some c →
    (c.links.map fun x => x.1.num).Pairwise (· < ·) ∧ ∀ x ∈ c.links, x.1 ∈ c.kind.points
  gridlocks : s.floor.gridlocks.length ≤ Config.gridlockRecords
  rxQueue : s.link.rxQueue.length ≤ Config.rxFrames
  queueSeq : s.floor.queueSeq < clockModulus
  siteTime : s.clock.siteTime < clockModulus

/-- How many holders a cell may have: one, and in a LANE its convoy limit (R52). -/
def Cell.holderBound (c : Cell) : Nat :=
  match c.live.lane with
  | some l => max 1 l.convoy
  | none => 1

/-- No cell has more holders than its bound, a LANE has a direction lock exactly while it has holders and no other
cell has one, and no route, its head cell included, nor any waiting passage, names a cell twice (R27, R41, R42, R52). -/
structure HoldersBounded (f : Floor) : Prop where
  holders : ∀ id c, f.cell id = some c → c.holders.length ≤ c.holderBound
  locks : ∀ id c, f.cell id = some c → (c.lock = none ↔ c.kind ≠ .lane ∨ c.holders = [])
  routes : ∀ x c pl, f.carrier x = some c → c.place = some pl → ((pl.head :: pl.ahead).map (·.cell)).Nodup
  passages : ∀ x c p, f.carrier x = some c → c.passage = some p → (p.cells.map (·.cell)).Nodup

/-- A carrier holds exactly its trail cells, its head cell and the granted prefix of its route, each once; nothing else
holds a cell; the granted count is 1 in STARTUP and CONFIG. Each route entry has the entry point that the step into it
gives, and a waiting passage is the entries that follow the granted prefix (R26, R41, R43, R48, R62). -/
structure HoldingsExact (s : State) : Prop where
  held : ∀ x c pl id k, s.floor.carrier x = some c → c.place = some pl → s.floor.cell id = some k →
    (x ∈ k.holders ↔ id ∈ (pl.trail ++ pl.head :: pl.ahead.take (pl.granted - 1)).map (·.cell))
  placed : ∀ x id k, s.floor.cell id = some k → x ∈ k.holders → ∃ c pl, s.floor.carrier x = some c ∧ c.place = some pl
  single : ∀ id k, s.floor.cell id = some k → k.holders.Nodup
  once : ∀ x c pl, s.floor.carrier x = some c → c.place = some pl →
    ((pl.trail ++ pl.head :: pl.ahead).map (·.cell)).Nodup
  granted : ∀ x c pl, s.floor.carrier x = some c → c.place = some pl → 1 ≤ pl.granted ∧
    pl.granted ≤ pl.ahead.length + 1 ∧ (s.ctl.mode = .startup ∨ s.ctl.mode = .config → pl.granted = 1)
  entries : ∀ x c pl (i : Nat) (prev e : Entry), s.floor.carrier x = some c → c.place = some pl →
    (pl.head :: pl.ahead)[i]? = some prev → pl.ahead[i]? = some e →
    ∃ k y, s.floor.cell prev.cell = some k ∧ IsExit k prev.entry e.cell y ∧ y.2.point = e.entry
  waiting : ∀ x c pl p, s.floor.carrier x = some c → c.place = some pl → c.passage = some p →
    p.index = pl.granted ∧ p.cells <+: pl.ahead.drop (pl.granted - 1)

/-- The waiting passage of a carrier. -/
def Floor.waitingPassage (f : Floor) (slot : Nat) : Option Passage := (f.carrier slot).bind (·.passage)

/-- Two passages stand in the order of R50: the first has the higher effective priority, or the same and no later
queue sequence. -/
def InOrder (a b : Passage) : Prop := b.priority < a.priority ∨ (b.priority = a.priority ∧ a.seq ≤ b.seq)

/-- The lists of the floor keep within their capacities: a route has at most 32 entries, a trail 6, a passage 1 to 8, a
waiting list 8, and a convoy limit, live, defined or pending, is 1 to 6. A waiting list holds a carrier at most
once, exactly the carriers whose passage has the cell, in the order of R50. Every entry of a route and a trail names
a defined cell; a cell is 1000 mm long at least, and a carrier 3000 mm at most (Introduction, R1, R7, R19, R20, R26,
R27, R31, R46, R49 to R51). -/
structure WithinCapacity (f : Floor) : Prop where
  routes : ∀ x c pl, f.carrier x = some c → c.place = some pl → pl.ahead.length + 1 ≤ Config.routeEntries
  trails : ∀ x c pl, f.carrier x = some c → c.place = some pl → pl.trail.length ≤ Config.trailEntries
  named : ∀ x c pl, f.carrier x = some c → c.place = some pl →
    ∀ e, e = pl.head ∨ e ∈ pl.ahead ∨ e ∈ pl.trail → (f.cell e.cell).isSome = true
  passages : ∀ x p, f.waitingPassage x = some p → p.cells ≠ [] ∧ p.cells.length ≤ Config.passageCells
  waiting : ∀ id c, f.cell id = some c → c.waiting.length ≤ Config.waitingPassages ∧ c.waiting.Nodup
  listed : ∀ x p e, f.waitingPassage x = some p → e ∈ p.cells → ∃ c, f.cell e.cell = some c ∧ x ∈ c.waiting
  waiters : ∀ id c x, f.cell id = some c → x ∈ c.waiting → ∃ p, f.waitingPassage x = some p ∧ id ∈ p.cells.map (·.cell)
  ordered : ∀ id c, f.cell id = some c → c.waiting.Pairwise fun x y =>
    ∀ a b, f.waitingPassage x = some a → f.waitingPassage y = some b → InOrder a b
  convoys : ∀ id c, f.cell id = some c → ∀ n,
    c.live.lane.map (·.convoy) = some n ∨ c.defined.lane.map (·.convoy) = some n ∨
      (c.amendment.bind (·.convoy)) = some n → 1 ≤ n ∧ n ≤ Config.convoyLimit
  lengths : ∀ id c, f.cell id = some c → 1000 ≤ c.length
  profiles : ∀ x c, f.carrier x = some c → c.profile.length ≤ 3000

/-- While the mode is HOLD or LOCKDOWN the ceiling of every placed carrier is 0 (R84). -/
def StoppedWhileHeld (s : State) : Prop :=
  s.ctl.mode = .hold ∨ s.ctl.mode = .lockdown →
    ∀ x c, s.floor.carrier x = some c → c.place.isSome = true → c.ceiling = 0

/-- Before service nothing waits: in STARTUP, CONFIG, HOLD and LOCKDOWN no carrier has a waiting passage (R62,
R141, R148). -/
def NothingWaits (s : State) : Prop :=
  s.ctl.mode ≠ .service → s.ctl.mode ≠ .commission →
    ∀ x c, s.floor.carrier x = some c → c.passage = none

/-! ## Halts -/

/-- The ahead distance of the reach that a halt shrink leaves: the lesser of that of the reach in the record, 0 behind
the head, and the stopping distance from the last reported speed (R80, R94). -/
def haltAt (f : Floor) (p : Params) (c : Carrier) (pl : Placement) : Nat :=
  min ((pl.aheadOf f pl.reach).getD 0) (stoppingDistance p c.profile.decel pl.last.speed)

/-- The granted entries whose near boundary lies beyond that distance (R94). -/
def beyondHalt (f : Floor) (p : Params) (c : Carrier) (pl : Placement) : List Entry :=
  (pl.grantedAhead.zipIdx.filter fun x => haltAt f p c pl < pl.near f (x.2 + 1)).map Prod.fst

/-- The reach in the record lies in the head cell or in a granted entry, inside its cell, and no cell stands twice on
the path. -/
structure ReachGranted (f : Floor) (pl : Placement) : Prop where
  cell : pl.reach.cell ∈ (pl.head :: pl.grantedAhead).map (·.cell)
  offset : pl.reach.offset ≤ f.len pl.reach.cell
  head : pl.offset ≤ f.len pl.head.cell
  once : ((pl.head :: pl.ahead).map (·.cell)).Nodup

/-- What the halt shrink of a carrier leaves at the end of its event: the granted count has fallen by the entries
beyond the shrunk reach, those cells are released and no other, and the reach is the point at the shrunk distance, or
nearer where the free distance on the floor that the event leaves is less (R63, R71, R80, R94, R95). -/
structure Shrunk (s t : State) (slot : Nat) (c : Carrier) (pl : Placement) : Prop where
  granted : ∃ d q, t.floor.carrier slot = some d ∧ d.place = some q ∧
    q.granted + (beyondHalt s.floor s.params c pl).length = 1 + pl.grantedAhead.length ∧
    q.reach = q.pointAt t.floor (min (q.freeDistance t.floor s.params slot) (haltAt s.floor s.params c pl))
  released : ∀ e ∈ beyondHalt s.floor s.params c pl, ∀ k, s.floor.cell e.cell = some k → k.holders.count slot ≤ 1 →
    ∃ m, t.floor.cell e.cell = some m ∧ slot ∉ m.holders
  kept : ∀ id k, id ∉ (beyondHalt s.floor s.params c pl).map (·.cell) → s.floor.cell id = some k → slot ∈ k.holders →
    ∃ m, t.floor.cell id = some m ∧ slot ∈ m.holders

/-! ## The entry into HOLD and LOCKDOWN -/

/-- The Mode Controller in HOLD, entered from SERVICE or COMMISSION (R148). -/
def heldFrom (s : State) (causes : HoldCauses) (linkTimer : LinkTimer) : ModeController :=
  { s.ctl with
    mode := .hold
    previous := if s.ctl.mode = .service then .service else .commission
    causes := causes
    holdCount := s.ctl.holdCount + 1
    recovery := some ⟨s.clock.siteTime, s.params.recoveryWindow * 1000⟩
    linkTimer := linkTimer
    halt := true }

/-- The Mode Controller in LOCKDOWN (R153). -/
def lockedFrom (s : State) (causes : HoldCauses) (cause : LockdownCause) : ModeController :=
  { s.ctl with
    mode := .lockdown
    previous := .none
    causes := causes
    lockdownCause := cause
    holdCount := 0
    recovery := none
    linkTimer := .stopped
    halt := true }

/-- What a hold cause FAULT does to the Mode Controller where an event raises it, and that nothing else of the event
touches the Mode Controller: HOLD from SERVICE, or LOCKDOWN by the count; the cause added in HOLD; nothing in CONFIG,
COMMISSION and LOCKDOWN (R90, R92, R93, R148, R150). -/
structure HaltAllActs (s t : State) (raised : Prop) : Prop where
  hold : raised → s.ctl.mode = .service → s.ctl.holdCount + 1 < s.params.holdLimit →
    t.ctl = heldFrom s ⟨false, true, false⟩ s.ctl.linkTimer
  lockdown : raised → s.ctl.mode = .service → s.params.holdLimit ≤ s.ctl.holdCount + 1 →
    t.ctl = lockedFrom s ⟨false, true, false⟩ .count
  added : raised → s.ctl.mode = .hold →
    t.ctl = { s.ctl with causes := ⟨s.ctl.causes.link, true, s.ctl.causes.request⟩ }
  none : ¬ raised ∨ s.ctl.mode = .config ∨ s.ctl.mode = .commission ∨ s.ctl.mode = .lockdown → GridQuiet s → t.ctl = s.ctl

/-- HOLD entered from SERVICE or COMMISSION: the Mode Controller's fields, and every placed carrier stopped,
without a passage, and HALTED with cause HOLD and its halt shrink where it was ACTIVE (R94, R148). -/
structure HoldTaken (s t : State) (causes : HoldCauses) (linkTimer : LinkTimer) : Prop where
  ctl : t.ctl = heldFrom s causes linkTimer
  carriers : ∀ x c, s.floor.carrier x = some c → c.place.isSome = true → ∃ d, t.floor.carrier x = some d ∧
    d.own = c.own ∧ d.passage = none ∧ d.ceiling = 0 ∧ d.reportTimer = c.reportTimer ∧
    d.state = (if c.state = .active then .halted else c.state) ∧
    d.haltedCause = (if c.state = .active then .hold else c.haltedCause)
  shrunk : ∀ x c pl, s.floor.carrier x = some c → c.place = some pl → c.state = .active → ReachGranted s.floor pl →
    Shrunk s t x c pl
  others : OthersKept [] s.floor t.floor
  definitions : DefinitionsKept s.floor t.floor
  part : SamePart s t

/-- LOCKDOWN entered: the Mode Controller's fields, every placed carrier stopped, no passage waiting and every
report timer stopped (R153). -/
structure LockdownTaken (s t : State) (causes : HoldCauses) (cause : LockdownCause) : Prop where
  ctl : t.ctl = lockedFrom s causes cause
  carriers : ∀ x c, s.floor.carrier x = some c → ∃ d, t.floor.carrier x = some d ∧
    d.own = c.own ∧ d.state = c.state ∧ d.passage = none ∧ d.reportTimer = none ∧
    (c.place.isSome = true → d.ceiling = 0)
  definitions : DefinitionsKept s.floor t.floor
  part : SamePart s t

/-! ## What a pin or request reset leaves -/

/-- The floor after a pin or request reset: no carrier, no gridlock record, every cell defined as before with
its live values, vacant, unconfirmed and unblocked; a map check is abandoned (R13, R19, R66, R86, R105, R126,
R131). -/
structure FloorReset (f g : Floor) : Prop where
  carriers : g.carriers = []
  gridlocks : g.gridlocks = [] ∧ g.gridOverflow = false ∧ g.queueSeq = 0
  layoutLock : g.layoutLock = f.layoutLock
  map : g.mapCheck = none ∧ g.mapState = (if f.mapState = .checking then .draft else f.mapState) ∧
    g.firstError = (if f.mapState = .checking then none else f.firstError)
  cells : ∀ id, g.cell id = (f.cell id).map fun c =>
    { c with
      amendment := none
      holders := []
      lock := none
      waiting := []
      raw := .unknown
      filtered := .unknown
      filterTimer := none
      absence := .idle
      confirmed := false
      sweepPending := false
      intrusion := none }

/-! ## Distances and speeds -/

/-- The square root of the Introduction: the largest integer whose square does not exceed the value. -/
def IsRoot (n r : Nat) : Prop := r * r ≤ n ∧ n < (r + 1) * (r + 1)

end Sys2Proof.Machine
end

