-- ==== Sys2Proof/Certificates/Slice0/Obligations.lean ====
section
/-! DEFINITION. The statements for the provers. Each holds for every state unless a hypothesis says otherwise;
hypotheses speak of the state and the operands alone. -/

open Sys2Proof Sys2Proof.Machine

/-! ## The machine -/

/-- One step runs the command at the front of the queue on the state with the queue's rest. -/
def Obligations.StepRunsFrontCommand : Prop :=
  ∀ (c : Instr) (rest : List Instr) (s : State),
    step { s with pending := c :: rest } = exec c { s with pending := rest }

/-- What the part does of itself on an empty queue (the model's choice, entries 1, 2 and 9; that the gap timer falls due
on the Site Clock, and in STARTUP too, is entry 8; R57, R140, R156, R159, R164,
R171): nothing without power or under the reset input; the reset that is due; else the events due at this site
time, in an order that is free, are put in the queue; else the oldest received frame is taken for serving, when
requests are answered, no reply waits to be sent and the reply to an accepted Reset execute is not being sent
(entry 34); else one millisecond of the Site Clock passes, in which only the
transmitter moves, by 115.2, 230.4, 460.8 or 921.6 bits. Elapsed times are counted modulo 2^32. -/
def Obligations.IdleStep : Prop :=
  (∀ now start : Nat, now < 4294967296 → start < 4294967296 →
    elapsed now start = if start ≤ now then now - start else now + 4294967296 - start) ∧
  ∀ s : State, s.pending = [] →
    (s.clock.powered = false ∨ s.clock.resetHeld = true → step s = .next s) ∧
    (s.clock.powered = true → s.clock.resetHeld = false →
      (s.link.resetDue = true → step s = .next { s with pending := [.requestReset] }) ∧
      (s.link.resetDue = false → (∃ i, EventDue s i) →
        ∃ l n, step s = .next { s with pending := l, free := n } ∧ ∀ i, i ∈ l ↔ EventDue s i) ∧
      (s.link.resetDue = false → (∀ i, ¬ EventDue s i) →
        (∀ f r, s.link.rxQueue = f :: r → s.ctl.mode ≠ .startup →
          (∀ o ∈ s.link.txQueue, o.kind.getLsbD 7 = false) → (∀ o ∈ s.link.sending, o.1.execReply = false) →
          step s = .next { s with pending := [decodeRequest f.tag f.kind f.payload] }) ∧
        (s.link.rxQueue = [] ∨ s.ctl.mode = .startup ∨ (∃ o ∈ s.link.txQueue, o.kind.getLsbD 7 = true) ∨
            (∃ o ∈ s.link.sending, o.1.execReply = true) →
          let tenths := match s.link.rate with
            | .r115200 => 1152
            | .r230400 => 2304
            | .r460800 => 4608
            | .r921600 => 9216
          step s = .next { s with
            clock := { s.clock with siteTime := (s.clock.siteTime + 1) % 4294967296 }
            link := transmit (s.link.txQueue.length + 1) tenths s.link })))

/-- The state right after power-on reset, in which the invariants below hold (R13, R19, R66, R131, R137, R158, R159,
R163, R164, R167, R171). The line rate, the supply and the reset input are the model's choice (entry 11) and are
not stated. -/
def Obligations.ResetLeaves : Prop :=
  State.reset.ctl.mode = .startup ∧ State.reset.ctl.previous = .none ∧
  State.reset.ctl.causes = ⟨false, false, false⟩ ∧ State.reset.ctl.lockdownCause = .none ∧
  State.reset.ctl.holdCount = 0 ∧ State.reset.ctl.recovery = none ∧ State.reset.ctl.linkTimer = .stopped ∧
  State.reset.ctl.halt = true ∧ State.reset.ctl.resetCause = .powerOn ∧
  State.reset.floor.mapState = .empty ∧ State.reset.floor.firstError = none ∧
  State.reset.floor.layoutLock = false ∧ State.reset.floor.cells = [] ∧ State.reset.floor.carriers = [] ∧
  State.reset.floor.queueSeq = 0 ∧ State.reset.floor.gridlocks = [] ∧ State.reset.floor.gridOverflow = false ∧
  State.reset.clock.siteTime = 0 ∧ State.reset.link.receiver.phase = .hunt ∧ State.reset.link.rxQueue = [] ∧
  State.reset.link.resetArm = false ∧ State.reset.link.rxOverflow = false ∧ State.reset.link.txQueue = [] ∧
  (∀ c ∈ [State.reset.link.classes.fault, State.reset.link.classes.mode, State.reset.link.classes.gridlock,
    State.reset.link.classes.route], c.armed = true ∧ c.withheld = false) ∧
  (List.range 29).map (fun i => State.reset.params.get (i + 1)) =
    [1000, 300, 200, 1000, 60, 4, 300, 100, 500, 250, 100, 50, 50, 500, 300, 120, 0,
      1, 1, 2, 0, 1, 1, 0, 0, 1, 1, 1, 1] ∧
  ModeConsistent State.reset ∧ ParamsInRange State.reset.params ∧ StoresCanonical State.reset ∧
    HoldersBounded State.reset.floor ∧ HoldingsExact State.reset ∧ WithinCapacity State.reset.floor ∧
    StoppedWhileHeld State.reset ∧ NothingWaits State.reset

/-- Every command answers a next state, whatever the state, and leaves the queue of commands as it found it: no
command stops the part. The queue is the model's own (entry 1), and that POWER_ON_RESET keeps it too is the model's
choice (entry 10). -/
def Obligations.EveryCommandAnswersNext : Prop :=
  ∀ (c : Instr) (s : State), ∃ t, exec c s = .next t ∧ t.pending = s.pending

/-- Every step keeps the Mode Controller's fields in agreement with the mode: the HALT line is released in SERVICE
and COMMISSION alone, the recovery window runs in HOLD alone, the link timer is stopped in STARTUP, CONFIG and
LOCKDOWN alone, and the hold count stays below hold_limit (R137, R139, R146, R148 to R153). -/
def Obligations.ModeStaysConsistent : Prop :=
  ∀ s t, ModeConsistent s → step s = .next t → ModeConsistent t

/-- Every step keeps every cell within its holders: one, or in a LANE its live convoy limit; a direction lock
stands exactly on a held LANE; no route, its head cell included, and no waiting passage names a cell twice (R27, R42,
R52). Every step of a part whose stores, modes and passages keep their invariants keeps the holdings exact: a carrier
holds its trail, its head cell and its granted prefix, each once, and no other cell (R26, R41, R43, R48, R62). -/
def Obligations.HoldersStayBounded : Prop :=
  (∀ s t, HoldersBounded s.floor → step s = .next t → HoldersBounded t.floor) ∧
  (∀ s t, StoresCanonical s → ModeConsistent s → NothingWaits s → HoldersBounded s.floor → WithinCapacity s.floor →
    HoldingsExact s → step s = .next t → HoldingsExact t)

/-- Every step keeps the stores in their canonical form, with their keys, fault kinds, gridlock records, received frames
and counters within their bounds, and every cell's links at connection points of its kind, in their order. Every step of a part whose
parameters and holders keep their invariants keeps the lists of the floor within their capacities: routes, trails, passages, waiting lists and convoy limits; and every
waiting list in the order of R50, with exactly the carriers whose passage has the cell (Introduction, R1, R2, R19, R26,
R27, R31, R46, R49 to R51, R86, R131, R159). -/
def Obligations.StoresStayCanonical : Prop :=
  (∀ s t, StoresCanonical s → step s = .next t → StoresCanonical t) ∧
  (∀ s t, StoresCanonical s → ParamsInRange s.params → HoldersBounded s.floor → WithinCapacity s.floor →
    step s = .next t → WithinCapacity t.floor)

/-- Every step keeps every parameter in its range, and absence_time at least 100 ms above filter_time (R85, R117,
R167, R168). -/
def Obligations.ParametersStayInRange : Prop :=
  ∀ s t, ParamsInRange s.params → step s = .next t → ParamsInRange t.params

/-- Every step keeps the ceiling of every placed carrier at 0 while the mode is HOLD or LOCKDOWN (R84). -/
def Obligations.HeldCarriersStayStopped : Prop :=
  ∀ s t, StoppedWhileHeld s → step s = .next t → StoppedWhileHeld t

/-- No step brings a waiting passage into a mode other than SERVICE and COMMISSION (R45, R62). -/
def Obligations.NothingWaitsOutsideService : Prop :=
  ∀ s t, ModeConsistent s → NothingWaits s → step s = .next t → NothingWaits t

/-- Which commands alone write what seldom changes: the parameters, the layout lock, the reset cause, the line
rate, the clock and the definitions of the cells. -/
def Obligations.SlowStateWriters : Prop :=
  ∀ (c : Instr) (s t : State), exec c s = .next t →
    (t.params = s.params ∨ (∃ g p, c = .setParameter g p) ∨ ∃ a b, c = .powerOnReset a b) ∧
    (t.floor.layoutLock = s.floor.layoutLock ∨ (∃ g p, c = .lockLayout g p) ∨ ∃ a b, c = .powerOnReset a b) ∧
    (t.ctl.resetCause = s.ctl.resetCause ∨ c = .pinReset ∨ c = .requestReset ∨ ∃ a b, c = .powerOnReset a b) ∧
    (t.link.rate = s.link.rate ∨ ∃ a b, c = .powerOnReset a b) ∧
    (t.clock = s.clock ∨ c = .pinReset ∨ c = .requestReset ∨ c = .resetInputRelease ∨ c = .siteClockWrap ∨
      c = .powerFailure ∨ ∃ a b, c = .powerOnReset a b) ∧
    (DefinitionsKept s.floor t.floor ∨ (∃ g p, c = .defineCell g p) ∨ ∃ a b, c = .powerOnReset a b)

/-! ## Requests and replies -/

/-- Every request taken is answered by exactly one reply, with its tag and its kind with bit 7 set, before the
notices of its event; a reply other than DONE and CLAMPED means that nothing has changed (R160 to R162). A request
whose frame is not at the front of the receive queue is answered the same and leaves the queue as it is (entry 4). -/
def Obligations.OneReplyPerRequest : Prop :=
  ∀ (c : Instr) (s : State) (tag kind : Byte) (payload : List Byte),
    c.wellFormed = true → requestFrame c = some (tag, kind, payload) → s.ready = true →
    ∃ t code content exe notices, exec c s = .next t ∧
      outgoing t.link = outgoing s.link ++ replyFrame s t tag kind code content exe :: notices ∧
      AllNotices notices ∧ t.link.rxQueue = restQueue tag kind payload s.link.rxQueue ∧
      t.link.rxOverflow = false ∧ LineKept s.link t.link ∧ t.clock = s.clock ∧
      (code ≠ .done → code ≠ .clamped → notices = [] ∧ OnlyLink s t ∧ t.link.classes = s.link.classes)

/-- The first judgements of a request, in their order: BAD_TAG, UNKNOWN_KIND, BAD_LENGTH, BUSY during a map check
but for Describe, Read status, Reset arm and Reset execute, and LOCKED in LOCKDOWN for every request but the
reports, the resets and the reads of R170, R155, R16, R40, R104 and R135 (R12, R160). That a Define cell with another
count of connection points than four, a Clear faults with another first byte than 0 to 2 and a presence byte other
than 0 and 1 are BAD_LENGTH is the model's choice (entries 13, 14 and 29), and so is the one byte of the parameter
identifier, on which BAD_LENGTH of Set parameter and Read parameter rests (entry 12). -/
def Obligations.RequestsJudgedFirst : Prop :=
  ∀ (c : Instr) (s : State) (tag kind : Byte) (payload : List Byte),
    c.wellFormed = true → requestFrame c = some (tag, kind, payload) → s.ready = true →
    (tag = 0 → AnswersOnly c s tag kind payload .badTag []) ∧
    (tag ≠ 0 → kind = 0 ∨ 0x1C#8 < kind → AnswersOnly c s tag kind payload .unknownKind []) ∧
    (tag ≠ 0 → kind ≠ 0 → kind ≤ 0x1C#8 →
      (payloadReads kind payload = false → AnswersOnly c s tag kind payload .badLength []) ∧
      (payloadReads kind payload = true → s.floor.mapState = .checking →
        kind ∉ [0x01#8, 0x02#8, 0x07#8, 0x08#8] → AnswersOnly c s tag kind payload .busy []) ∧
      (payloadReads kind payload = true → s.floor.mapState ≠ .checking → s.ctl.mode = .lockdown →
        kind ∉ [0x01#8, 0x02#8, 0x07#8, 0x08#8, 0x0F#8, 0x11#8, 0x17#8, 0x18#8, 0x1A#8, 0x1C#8] →
        AnswersOnly c s tag kind payload .locked []))

/-- Until the part is out of reset and past STARTUP, no request is answered and no timer of the floor or the modes takes
effect (R140, R141); in STARTUP the gap timer of the line does (entry 8, BadFramesRescanned). That the same holds of a part without power is the model's choice (entry 10), and so is that such
a command leaves the state as it is (entry 5). -/
def Obligations.SilentBeforeReady : Prop :=
  ∀ (c : Instr) (s : State), s.ready = false →
    (requestFrame c).isSome = true ∨ c ∈ [.mapCheckEnd, .linkSupervisionExpiry, .recoveryWindowExpiry] ∨
      (∃ n, c ∈ [.reportTimerExpiry n, .waitLimit n, .promotion n, .filterTimerExpiry n, .absenceTimerExpiry n]) →
    exec c s = .next s

/-! ## The line -/

/-- The bytes of a frame, taken from HUNT after STARTUP, are one frame with that tag, kind and payload: the link
supervision timer starts afresh unless it is stopped, the frame is queued when fewer than four wait and else sets
the overflow flag, a queued Reset execute is marked armed when the reset-arm flag was set, and the flag is set by
a queued Reset arm with a tag and an empty payload and cleared by every other frame (R146, R157, R158, R159,
R164). During STARTUP the frame is discarded (R141); that it leaves the link supervision timer and the reset-arm flag
as they are is entry 26. The row's bytes are those of the whole frame (entry 6). -/
def Obligations.GoodFrameQueued : Prop :=
  ∀ (s : State) (tag kind : Byte) (payload : List Byte), s.clock.powered = true → s.clock.resetHeld = false →
    s.link.receiver.phase = .hunt → payload.length ≤ 248 →
    let link : LinkInterface := { s.link with receiver := ⟨.hunt, false, []⟩, gapTimer := none }
    let room : Bool := decide (s.link.rxQueue.length < 4)
    let timer : LinkTimer := if s.ctl.linkTimer = .stopped then .stopped
      else .running ⟨s.clock.siteTime, s.params.linkTimeout⟩
    let queued : List Frame := if room then
      s.link.rxQueue ++ [⟨tag, kind, payload, kind == 0x08#8 && s.link.resetArm⟩] else s.link.rxQueue
    (s.ctl.mode = .startup → exec (.goodFrameTaken (frameBytes tag kind payload)) s = .next { s with link := link }) ∧
    (s.ctl.mode ≠ .startup → exec (.goodFrameTaken (frameBytes tag kind payload)) s = .next { s with
      ctl := { s.ctl with linkTimer := timer }
      link := { link with
        rxQueue := queued
        rxOverflow := s.link.rxOverflow || !room
        resetArm := kind == 0x07#8 && tag != 0 && payload == [] && room } })

/-- What the line brings beside a good frame (R140, R156, R158). Bytes taken in two runs are as taken in one, and a bad
CRC and an invalid length byte are judged by the receiver as the bytes come. A frame with a wrong CRC passes the
bytes held after its start byte to the receiver again, as if the line had brought them, and leaves nothing when no
start byte is among them; a length byte of 0, 1 or 251..255 after a start byte leaves nothing. After a framing
error or the gap timer's expiry the receiver is in HUNT with nothing held. While the part has no power or its reset
input is held, no command of the line changes anything. The rows' bytes, with one effect of three rows, are entry 6,
the gap timer's count on the Site Clock entry 8, and the part without power entry 10. -/
def Obligations.BadFramesRescanned : Prop :=
  ∀ s : State,
    let dropped (t : State) : State := { t with link := { t.link with receiver := ⟨.hunt, false, []⟩, gapTimer := none } }
    (s.clock.powered = true → s.clock.resetHeld = false →
      (∀ before after, ∃ t, exec (.goodFrameTaken before) s = .next t ∧
        exec (.goodFrameTaken (before ++ after)) s = exec (.goodFrameTaken after) t ∧
        exec (.framingErrorByte before) s = .next (dropped t)) ∧
      (∀ bytes, exec (.badCrcFrame bytes) s = exec (.goodFrameTaken bytes) s ∧
        exec (.invalidLengthByte bytes) s = exec (.goodFrameTaken bytes) s) ∧
      (∀ (tag kind : Byte) (payload : List Byte) (x y : Byte), s.link.receiver.phase = .hunt →
        payload.length ≤ 248 → [x, y] ≠ crcBytes (frameBody tag kind payload) →
        let held := frameBody tag kind payload ++ [x, y]
        exec (.badCrcFrame (0xC3#8 :: held)) s = exec (.goodFrameTaken held) s ∧
        (0xC3#8 ∉ held → exec (.badCrcFrame (0xC3#8 :: held)) s = .next (dropped s))) ∧
      (∀ n : Byte, s.link.receiver.phase = .hunt → n.toNat < 2 ∨ 250 < n.toNat →
        exec (.invalidLengthByte [0xC3#8, n]) s = .next (dropped s)) ∧
      (∀ g, s.link.gapTimer = some g → g.period ≤ elapsed s.clock.siteTime g.start →
        exec .gapTimerExpiry s = .next (dropped s))) ∧
    (s.clock.powered = false ∨ s.clock.resetHeld = true → ∀ bytes,
      exec (.goodFrameTaken bytes) s = .next s ∧ exec (.badCrcFrame bytes) s = .next s ∧
      exec (.invalidLengthByte bytes) s = .next s ∧ exec (.framingErrorByte bytes) s = .next s ∧
      exec .gapTimerExpiry s = .next s)

/-- The transmitter sends frames whole and in order: over any time the frames that remain are the last of those
there were, and the reset of R164 becomes due only when the reply to an accepted Reset execute has been sent,
after which no frame begins. While it sends, it loses no time between frames: the time still to be sent, ten bits for
each of the N + 4 bytes of a frame, falls by the time that passes (R156, R157, R160, R164; the granularity is
entry 9). -/
def Obligations.TransmitterKeepsOrder : Prop :=
  (∀ (n tenths : Nat) (l : LinkInterface), ∃ sent, outgoing l = sent ++ outgoing (transmit n tenths l) ∧
    (l.resetDue = false → (transmit n tenths l).resetDue = true →
      (transmit n tenths l).sending = none ∧ ∃ f r, sent = r ++ [f] ∧ f.execReply = true)) ∧
  (∀ (tenths : Nat) (l : LinkInterface), l.sending.isSome = true → (∀ o ∈ outgoing l, o.execReply = false) →
    let left (m : LinkInterface) : Nat :=
      m.sending.elim 0 Prod.snd + (m.txQueue.map fun o => (o.payload.length + 2 + 4) * 100).sum
    left (transmit (l.txQueue.length + 1) tenths l) = left l - tenths)

/-- The summary status byte, field by field, and its place: first in the payload of every reply and every notice, built
from the state at that moment (R161). -/
def Obligations.SummaryByteFields : Prop :=
  (∀ s : State,
    ((summary s).extractLsb' 0 3).toNat = (match s.ctl.mode with
      | .startup => 0 | .config => 1 | .service => 2 | .commission => 3 | .hold => 4 | .lockdown => 5) ∧
    ((summary s).getLsbD 3 = true ↔ (∃ e ∈ s.floor.carriers, e.2.faults ≠ []) ∨
      (∃ e ∈ s.floor.cells, e.2.intrusion ≠ none) ∨ s.floor.gridlocks ≠ []) ∧
    ((summary s).getLsbD 4 = true ↔ s.ctl.halt = true) ∧
    ((summary s).getLsbD 5 = true ↔ s.link.classes.fault.withheld = true ∨ s.link.classes.mode.withheld = true ∨
      s.link.classes.gridlock.withheld = true ∨ s.link.classes.route.withheld = true) ∧
    ((summary s).getLsbD 6 = true ↔ s.link.rxOverflow = true) ∧
    ((summary s).getLsbD 7 = true ↔ s.floor.mapState = .valid)) ∧
  (∀ (s : State) tag kind code content exe, ∃ f, f.payload.head? = some (summary s) ∧
    outgoing (sendReply tag kind code content exe s).link = outgoing s.link ++ [f]) ∧
  (∀ (s : State) k, ∃ f, f.payload.head? = some (summary s) ∧
    outgoing (sendNotice s k).link = outgoing s.link ++ [f])

/-! ## Reads and the two-step reset -/

/-- Describe, Read cell, Read carrier and Read parameter answer DONE and change nothing (R16, R40, R169, R170). The
widths and numbers of their contents rest on entry 12, their presence bytes on entry 39, the connection points of Read
cell on entry 13 and its levels on entry 25. -/
def Obligations.ReadsChangeNothing : Prop :=
  ∀ (s : State) (tag : Byte), s.ready = true → tag ≠ 0 →
    AnswersOnly (.describe tag []) s tag 0x01 [] .done (describeItems s) ∧
    (s.floor.mapState ≠ .checking →
      (∀ id < 384, AnswersOnly (.readCell tag (beBytes 2 id)) s tag 0x0F (beBytes 2 id) .done
        (match s.floor.cell id with
          | none => [.num 1 0]
          | some c => cellItems s c)) ∧
      (∀ slot < 48, AnswersOnly (.readCarrier tag (beBytes 1 slot)) s tag 0x18 (beBytes 1 slot) .done
        (match s.floor.carrier slot with
          | none => [.num 1 0]
          | some c => carrierItems s c)) ∧
      (s.ctl.mode ≠ .lockdown → ∀ id, 1 ≤ id → id ≤ 29 →
        AnswersOnly (.readParameter tag (beBytes 1 id)) s tag 0x0A (beBytes 1 id) .done
          [.num 1 id, .num 4 (s.params.get id), .num 4 (paramRange id).1, .num 4 (paramRange id).2,
            .num 4 (defaultParams.get id), .num 1 (if id = 24 ∨ id = 25 then 1 else 0)]))

/-- Read status, Read faults, Read gridlocks and Read map state answer DONE, re-arm their notice class with its
withheld mark cleared, and change nothing else; Read gridlocks shows the overflow flag and clears it. An event of an
enabled class sends its notice and disarms the class when it is armed, and sets the withheld mark when it is not; an
event of a class that is not enabled does neither (R17, R104, R135, R155, R163; the contents of the replies rest on
entries 12 and 39, the order of the notices of one event on entry 20). -/
def Obligations.ReadsRearmNotices : Prop :=
  (∀ (s : State) (tag : Byte), s.ready = true → tag ≠ 0 →
    (∃ t, exec (.readStatus tag []) s = .next t ∧ OnlyLink s t ∧
      t.link.classes = { s.link.classes with mode := ⟨true, false⟩ } ∧
      Answered s t tag 0x02 [] .done (statusItems s) []) ∧
    (s.floor.mapState ≠ .checking →
      (∃ t, exec (.readFaults tag []) s = .next t ∧ OnlyLink s t ∧
        t.link.classes = { s.link.classes with fault := ⟨true, false⟩ } ∧
        Answered s t tag 0x1A [] .done (faultsItems s) []) ∧
      (∃ t, exec (.readGridlocks tag []) s = .next t ∧
        OnlyLink { s with floor := { s.floor with gridOverflow := false } } t ∧
        t.link.classes = { s.link.classes with gridlock := ⟨true, false⟩ } ∧
        Answered s t tag 0x1C [] .done (gridlockItems s.floor.gridOverflow s) []) ∧
      (s.ctl.mode ≠ .lockdown → ∃ t, exec (.readMapState tag []) s = .next t ∧ OnlyLink s t ∧
        t.link.classes = { s.link.classes with route := ⟨true, false⟩ } ∧
        Answered s t tag 0x10 [] .done (mapStateItems s.floor) []))) ∧
  (∀ (p : Params) (n : Notices) (c : NoticeClasses),
    let told {α : Type} (event : Option α) (enabled : Bool) (k : NoticeClass) (notice : α → NoticeKind) :=
      if enabled && k.armed then (event.map notice).toList else []
    (takeNotices p n c).1 = told n.fault p.enableFault c.fault (fun x => .fault x.1 x.2)
      ++ told (if n.mode then some () else none) p.enableMode c.mode (fun _ => .mode)
      ++ told n.grid p.enableGridlock c.gridlock .gridlock ++ told n.route p.enableRoute c.route .route ∧
    (takeNotices p n c).2 =
      { fault := if n.fault = none then c.fault else classAfter p.enableFault c.fault
        mode := if n.mode = false then c.mode else classAfter p.enableMode c.mode
        gridlock := if n.grid = none then c.gridlock else classAfter p.enableGridlock c.gridlock
        route := if n.route = none then c.route else classAfter p.enableRoute c.route })

/-- Reset arm answers DONE and changes nothing. Reset execute answers NOT_ARMED unless its frame, at the front of
the queue, is marked armed; an armed one is answered DONE with the reset cause REQUEST, and its reply is the one
after which the reset is taken (R164). That a Reset execute whose frame is not at the front of the queue has no mark
is the model's choice (entry 4). -/
def Obligations.TwoStepReset : Prop :=
  ∀ (s : State) (tag : Byte), s.ready = true → tag ≠ 0 →
    AnswersOnly (.resetArm tag []) s tag 0x07 [] .done [] ∧
    ((∀ r, s.link.rxQueue ≠ ⟨tag, 0x08, [], true⟩ :: r) →
      AnswersOnly (.resetExecute tag []) s tag 0x08 [] .notArmed []) ∧
    (∀ r, s.link.rxQueue = ⟨tag, 0x08, [], true⟩ :: r → ∃ t, exec (.resetExecute tag []) s = .next t ∧
      OnlyLink s t ∧ t.link.classes = s.link.classes ∧ t.link.rxQueue = r ∧ t.link.rxOverflow = false ∧
      LineKept s.link t.link ∧
      outgoing t.link = outgoing s.link ++ [replyFrame s t tag 0x08 .done [.num 1 2] true])

/-! ## Modes -/

/-- Set mode, judged in the order of R142; the targets CONFIG, SERVICE and COMMISSION are 0, 1 and 2 (R165). An
accepted change is a MODE event (R154, R163); that its notice leaves before those of other classes is entry 20. -/
def Obligations.SetModeJudged : Prop :=
  ∀ (s : State) (tag : Byte) (payload : List Byte), s.ready = true → tag ≠ 0 →
    (payload.length ≠ 1 → AnswersOnly (.setMode tag payload) s tag 0x03 payload .badLength []) ∧
    (∀ b : Byte, payload = [b] →
      (s.floor.mapState = .checking → AnswersOnly (.setMode tag payload) s tag 0x03 payload .busy []) ∧
      (s.floor.mapState ≠ .checking →
        (s.ctl.mode = .lockdown → AnswersOnly (.setMode tag payload) s tag 0x03 payload .locked []) ∧
        (s.ctl.mode ≠ .lockdown →
          (2 < b.toNat → AnswersOnly (.setMode tag payload) s tag 0x03 payload .badArgument [.num 1 1]) ∧
          (b.toNat ≤ 2 →
            let target : Mode := if b.toNat = 0 then .config else if b.toNat = 1 then .service else .commission
            (s.ctl.mode = .hold → AnswersOnly (.setMode tag payload) s tag 0x03 payload .wrongMode []) ∧
            (s.ctl.mode = target → AnswersOnly (.setMode tag payload) s tag 0x03 payload .done []) ∧
            (s.ctl.mode ≠ .hold → s.ctl.mode ≠ target →
              (s.ctl.mode = .config → s.floor.mapState ≠ .valid →
                AnswersOnly (.setMode tag payload) s tag 0x03 payload .wrongState []) ∧
              (s.ctl.mode ≠ .config → target = .config → notStanding s.floor ≠ [] →
                AnswersOnly (.setMode tag payload) s tag 0x03 payload .wrongState
                  [byteList (notStanding s.floor)]) ∧
              ((s.ctl.mode = .config → s.floor.mapState = .valid) →
                (target = .config → notStanding s.floor = []) →
                ∃ t rest, exec (.setMode tag payload) s = .next t ∧ SamePart s t ∧ t.ctl.mode = target ∧
                  t.link.classes.mode = classAfter s.params.enableMode s.link.classes.mode ∧
                  Answered s t tag 0x03 payload .done [] (modeNotices s t ++ rest) ∧ AllNotices rest))))))

/-- What the changes of mode by Set mode do. From CONFIG to SERVICE or COMMISSION (R143): the HALT line is released, the
link supervision timer starts, and so does the report timer of every ACTIVE and HALTED carrier. Between SERVICE and
COMMISSION (R144): every timer, passage and holding stays. From either to CONFIG with every ACTIVE carrier standing
(R145): the HALT line is asserted, the link supervision timer and every report timer stop, every passage is
withdrawn, every granted count becomes 1 and the granted cells ahead of the head cells are released (R62). That the
MODE notice leaves before those of other classes is entry 20. -/
def Obligations.ModeChangesAct : Prop :=
  ∀ (s : State) (tag : Byte), s.ready = true → tag ≠ 0 →
    (∀ m, m = .service ∨ m = .commission → s.ctl.mode = .config → s.floor.mapState = .valid →
      ∃ t, exec (.setMode tag [if m = .service then 1 else 2]) s = .next t ∧ SamePart s t ∧
        t.ctl = { s.ctl with
          mode := m
          halt := false
          linkTimer := .running ⟨s.clock.siteTime, s.params.linkTimeout⟩ } ∧
        t.floor = { s.floor with carriers := t.floor.carriers } ∧
        (∀ x, s.floor.carrier x = none → t.floor.carrier x = none) ∧
        (∀ x c, s.floor.carrier x = some c → ∃ d, t.floor.carrier x = some d ∧ d.own = c.own ∧
          d.state = c.state ∧ d.haltedCause = c.haltedCause ∧ d.passage = c.passage ∧
          d.reportTimer = (if c.state = .active ∨ c.state = .halted then
            some ⟨s.clock.siteTime, s.params.reportTimeout⟩ else c.reportTimer) ∧
          (c.place.isSome = true → c.state ≠ .active → d.ceiling = 0)) ∧
        Answered s t tag 0x03 [if m = .service then 1 else 2] .done [] (modeNotices s t)) ∧
    (s.floor.mapState ≠ .checking → s.ctl.mode = .service ∨ s.ctl.mode = .commission →
      (∀ m, m = .service ∨ m = .commission → m ≠ s.ctl.mode →
        ∃ t, exec (.setMode tag [if m = .service then 1 else 2]) s = .next t ∧ SamePart s t ∧
          t.ctl = { s.ctl with mode := m } ∧ t.floor = { s.floor with carriers := t.floor.carriers } ∧
          (∀ x c, s.floor.carrier x = some c → ∃ d, t.floor.carrier x = some d ∧ d.own = c.own ∧
            d.state = c.state ∧ d.passage = c.passage ∧ d.reportTimer = c.reportTimer ∧
            d.place.map (·.granted) = c.place.map (·.granted)) ∧
          Answered s t tag 0x03 [if m = .service then 1 else 2] .done [] (modeNotices s t)) ∧
      (notStanding s.floor = [] →
        ∃ t rest, exec (.setMode tag [0]) s = .next t ∧ SamePart s t ∧ DefinitionsKept s.floor t.floor ∧
          t.ctl = { s.ctl with mode := .config, halt := true, linkTimer := .stopped } ∧
          (∀ x c, s.floor.carrier x = some c → ∃ d, t.floor.carrier x = some d ∧ d.own = c.own ∧
            d.state = c.state ∧ d.passage = none ∧ d.reportTimer = none ∧
            d.place.map (·.granted) = c.place.map (fun _ => 1)) ∧
          (∀ x c pl e k, s.floor.carrier x = some c → c.place = some pl → e ∈ pl.grantedAhead →
            s.floor.cell e.cell = some k → k.holders.count x ≤ 1 →
            ∃ m, t.floor.cell e.cell = some m ∧ x ∉ m.holders) ∧
          Answered s t tag 0x03 [0] .done [] (modeNotices s t ++ rest) ∧ AllNotices rest))

/-- Hold, judged in the order of R147. In SERVICE and COMMISSION it is a hold cause: HOLD, with the halt shrink of every
ACTIVE carrier, while the raised count stays below hold_limit, else LOCKDOWN (R94, R148). That the MODE notice leaves
before those of other classes is entry 20. -/
def Obligations.HoldJudged : Prop :=
  ∀ (s : State) (tag : Byte) (payload : List Byte), s.ready = true → tag ≠ 0 →
    (payload ≠ [] → AnswersOnly (.hold tag payload) s tag 0x04 payload .badLength []) ∧
    (payload = [] →
      (s.floor.mapState = .checking → AnswersOnly (.hold tag []) s tag 0x04 [] .busy []) ∧
      (s.floor.mapState ≠ .checking →
        (s.ctl.mode = .lockdown → AnswersOnly (.hold tag []) s tag 0x04 [] .locked []) ∧
        (s.ctl.mode = .config → AnswersOnly (.hold tag []) s tag 0x04 [] .wrongMode []) ∧
        (s.ctl.mode = .hold → AnswersOnly (.hold tag []) s tag 0x04 [] .done []) ∧
        (s.ctl.mode = .service ∨ s.ctl.mode = .commission →
          ∃ t rest, exec (.hold tag []) s = .next t ∧
            Answered s t tag 0x04 [] .done [] (modeNotices s t ++ rest) ∧ AllNotices rest ∧
            (s.ctl.holdCount + 1 < s.params.holdLimit → HoldTaken s t ⟨false, false, true⟩ s.ctl.linkTimer) ∧
            (s.params.holdLimit ≤ s.ctl.holdCount + 1 → LockdownTaken s t ⟨false, false, true⟩ .count))))

/-- Resume, judged in the order of R152: refused with its blockers while a holding fault exists, a latched fault whose
kind is set to HALT_ALL now (R89); else the previous mode returns with the HALT line released, the window stopped and
the causes cleared, and no carrier changes its state or gains a passage. The hold count and the link timer stay. The
order of the blockers is entry 33, their widths and numbers entry 12. -/
def Obligations.ResumeJudged : Prop :=
  ∀ (s : State) (tag : Byte) (payload : List Byte), s.ready = true → tag ≠ 0 →
    let holds (kind : Nat) : Bool := decide (s.params.action kind = .haltAll)
    let kinds (c : Carrier) : List Nat := (c.faults.map Prod.fst).filter holds
    let carriers := s.floor.carriers.filter fun e => kinds e.2 != []
    let cells := s.floor.cells.filter fun e => e.2.intrusion.isSome && holds 6
    let holding : Prop := carriers ≠ [] ∨ cells ≠ [] ∨ (holds 7 = true ∧ s.floor.gridlocks ≠ [])
    (payload ≠ [] → AnswersOnly (.resume tag payload) s tag 0x05 payload .badLength []) ∧
    (payload = [] →
      (s.floor.mapState = .checking → AnswersOnly (.resume tag []) s tag 0x05 [] .busy []) ∧
      (s.floor.mapState ≠ .checking →
        (s.ctl.mode = .lockdown → AnswersOnly (.resume tag []) s tag 0x05 [] .locked []) ∧
        (s.ctl.mode = .config ∨ s.ctl.mode = .service ∨ s.ctl.mode = .commission →
          AnswersOnly (.resume tag []) s tag 0x05 [] .wrongMode []) ∧
        (s.ctl.mode = .hold → holding →
          AnswersOnly (.resume tag []) s tag 0x05 [] .heldByFault
            [.list 1 carriers.length (carriers.map fun e =>
              [.num 1 e.1, .list (kinds e.2).length ((kinds e.2).map fun k => [(1, k)])]),
            .list 2 cells.length (cells.map fun e => [.num 2 e.1])]) ∧
        (s.ctl.mode = .hold → ¬ holding → ∀ m,
          (s.ctl.previous = .service ∧ m = .service) ∨ (s.ctl.previous = .commission ∧ m = .commission) →
          ∃ t, exec (.resume tag []) s = .next t ∧ SamePart s t ∧
            t.ctl = { s.ctl with
              mode := m
              previous := .none
              causes := ⟨false, false, false⟩
              recovery := none
              halt := false } ∧
            t.floor = { s.floor with carriers := t.floor.carriers } ∧
            (∀ x c, s.floor.carrier x = some c → ∃ d, t.floor.carrier x = some d ∧ d.own = c.own ∧
              d.state = c.state ∧ d.haltedCause = c.haltedCause ∧ d.passage = c.passage ∧
              d.reportTimer = c.reportTimer) ∧
            t.link.classes.mode = classAfter s.params.enableMode s.link.classes.mode ∧
            Answered s t tag 0x05 [] .done [.num 1 m.num] (modeNotices s t))))

/-- Clear hold count answers the count it clears, and changes nothing else (R149). That the count is one byte is the
model's choice (entry 12). -/
def Obligations.ClearHoldCountAnswers : Prop :=
  ∀ (s : State) (tag : Byte), s.ready = true → tag ≠ 0 → s.floor.mapState ≠ .checking → s.ctl.mode ≠ .lockdown →
    ∃ t, exec (.clearHoldCount tag []) s = .next t ∧ OnlyLink { s with ctl := { s.ctl with holdCount := 0 } } t ∧
      t.link.classes = s.link.classes ∧ Answered s t tag 0x06 [] .done [.num 1 s.ctl.holdCount] []

/-- The expiry of the link supervision timer (R146): the timer is LAPSED and hold cause LINK is handed on. In SERVICE
and COMMISSION it brings HOLD, or LOCKDOWN by the count (R148); in HOLD it is added to the causes, a MODE event
when it is new (R150). The expiry of the recovery window in HOLD brings LOCKDOWN with cause WINDOW, and the hold
causes stay (R151, R153). Each is a MODE event but the cause already held (R154, R163); that its notice leaves before
those of other classes is entry 20. -/
def Obligations.ModeTimersExpire : Prop :=
  ∀ (s : State) (w : Timer), s.ready = true → w.period ≤ elapsed s.clock.siteTime w.start →
    (s.ctl.linkTimer = .running w → s.ctl.mode = .service ∨ s.ctl.mode = .commission →
      ∃ t rest, exec .linkSupervisionExpiry s = .next t ∧ Told s t (modeNotices s t ++ rest) ∧ AllNotices rest ∧
        t.link.classes.mode = classAfter s.params.enableMode s.link.classes.mode ∧
        (s.ctl.holdCount + 1 < s.params.holdLimit → HoldTaken s t ⟨true, false, false⟩ .lapsed) ∧
        (s.params.holdLimit ≤ s.ctl.holdCount + 1 → LockdownTaken s t ⟨true, false, false⟩ .count)) ∧
    (s.ctl.linkTimer = .running w → s.ctl.mode = .hold →
      ∃ t, exec .linkSupervisionExpiry s = .next t ∧ SamePart s t ∧ t.floor = s.floor ∧
        t.ctl = { s.ctl with
          linkTimer := .lapsed
          causes := ⟨true, s.ctl.causes.fault, s.ctl.causes.request⟩ } ∧
        t.link.classes = (if s.ctl.causes.link then s.link.classes else { s.link.classes with
          mode := classAfter s.params.enableMode s.link.classes.mode }) ∧
        Told s t (if s.ctl.causes.link then [] else modeNotices s t)) ∧
    (s.ctl.recovery = some w → s.ctl.mode = .hold →
      ∃ t rest, exec .recoveryWindowExpiry s = .next t ∧ LockdownTaken s t s.ctl.causes .window ∧
        t.link.classes.mode = classAfter s.params.enableMode s.link.classes.mode ∧
        Told s t (modeNotices s t ++ rest) ∧ AllNotices rest)

/-! ## Resets and the Site Clock -/

/-- Power-on reset, with the rate of the straps; the release of the reset input; the end of STARTUP, 40 ms after a
power-on reset and 10 ms after another; the loss of power; the wrap of the Site Clock, which changes nothing else
(R137, R140, R141, R156, R171). That power-on keeps the model's own queue and counter, and what a power failure
leaves, is the model's choice (entry 10), and so is that power-on leaves the reset input released (entry 11). -/
def Obligations.PowerAndClockEvents : Prop :=
  ∀ s : State,
    (∀ rate1 rate0 : Bool, exec (.powerOnReset rate1 rate0) s = .next { State.reset with
      pending := s.pending
      free := s.free
      link := { State.reset.link with rate :=
        if rate1 then (if rate0 then .r921600 else .r460800) else if rate0 then .r230400 else .r115200 } }) ∧
    (s.clock.powered = true → s.clock.resetHeld = true →
      exec .resetInputRelease s = .next { s with clock := { s.clock with resetHeld := false, siteTime := 0 } }) ∧
    (s.clock.powered = true → s.clock.resetHeld = false → s.ctl.mode = .startup →
      (if s.ctl.resetCause = .powerOn then 40 else 10) ≤ s.clock.siteTime →
      ∃ t, exec .startupEnd s = .next t ∧ SamePart s t ∧ t.floor = s.floor ∧
        t.ctl = { s.ctl with mode := .config } ∧ Told s t (modeNotices s t) ∧
        t.link.classes = { s.link.classes with
          mode := classAfter s.params.enableMode s.link.classes.mode }) ∧
    exec .powerFailure s = .next { s with
      clock := { s.clock with powered := false }
      link := { s.link with sending := none } } ∧
    (s.clock.powered = true → s.clock.resetHeld = false → s.clock.siteTime = 4294967295 →
      exec .siteClockWrap s = .next { s with clock := { s.clock with siteTime := 0 } })

/-- Pin reset and request reset: the parameters, the hold count, the line rate, the map's definitions, live values and
layout lock are kept; every carrier, holder, passage, pending amendment, latched fault and gridlock record is gone;
a map check is abandoned; the mode is STARTUP, the Site Clock 0 and the link idle. A pin reset begins with the
reset input held; a request reset lets a frame already begun go on (R13, R19, R66, R86, R105, R126, R131, R137,
R140, R158, R159, R163, R164). -/
def Obligations.PinAndRequestReset : Prop :=
  ∀ s : State, s.clock.powered = true →
    let ctl (cause : ResetCause) : ModeController :=
      { State.reset.ctl with holdCount := s.ctl.holdCount, resetCause := cause }
    (∃ t, exec .pinReset s = .next t ∧ FloorReset s.floor t.floor ∧ t.params = s.params ∧
      t.ctl = ctl .pin ∧ t.clock = ⟨true, true, 0⟩ ∧ t.link = { State.reset.link with rate := s.link.rate } ∧
      t.pending = s.pending ∧ t.free = s.free) ∧
    (s.link.resetDue = true →
      ∃ t, exec .requestReset s = .next t ∧ FloorReset s.floor t.floor ∧ t.params = s.params ∧
        t.ctl = ctl .request ∧ t.clock = ⟨true, s.clock.resetHeld, 0⟩ ∧
        t.link = { State.reset.link with rate := s.link.rate, sending := s.link.sending } ∧
        t.pending = s.pending ∧ t.free = s.free)

/-! ## Parameters -/

/-- An accepted Set parameter stores the value, clamped for identifiers 1 to 17 to its range and to the gap of 100 ms
between filter_time and absence_time, and answers the former and the stored value, CLAMPED when they differ from
the value sent; a write of hold_limit clears the hold count. The floor is touched by a changed stop_gap,
follow_gap, reaction_margin or commission_speed alone (R81, R117, R149, R168). That the identifier is one byte is the
model's choice (entry 12). -/
def Obligations.SetParameterStores : Prop :=
  ∀ (s : State) (tag : Byte) (id v : Nat), s.ready = true → tag ≠ 0 → s.floor.mapState ≠ .checking →
    s.ctl.mode ≠ .lockdown → 1 ≤ id → id ≤ 29 → v < 4294967296 → (id ≤ 17 → s.ctl.mode = .config) →
    (18 ≤ id → id ≤ 25 → v ≤ 2 ∧ (24 ≤ id → v ≠ 1)) → (26 ≤ id → v ≤ 1) →
    let clamped := min (max v (paramRange id).1) (paramRange id).2
    let stored := if 17 < id then v
      else if id = 3 then min clamped (s.params.absenceTime - 100)
      else if id = 4 then max clamped (s.params.filterTime + 100)
      else clamped
    let payload := beBytes 1 id ++ beBytes 4 v
    ∃ t notices, exec (.setParameter tag payload) s = .next t ∧
      Answered s t tag 0x09 payload (if stored = v then .done else .clamped)
        [.num 4 (s.params.get id), .num 4 stored] notices ∧ AllNotices notices ∧
      (∀ j, 1 ≤ j → j ≤ 29 → t.params.get j = if j = id then stored else s.params.get j) ∧
      t.ctl = { s.ctl with holdCount := if id = 6 then 0 else s.ctl.holdCount } ∧
      t.pending = s.pending ∧ t.free = s.free ∧ t.clock = s.clock ∧
      t.floor = { s.floor with carriers := t.floor.carriers } ∧ OthersKept [] s.floor t.floor ∧
      (id ∉ [7, 9, 10, 15] ∨ stored = s.params.get id → t.floor = s.floor)

/-- A write that changes stop_gap, to the value sent or the one it is clamped to, cuts the last entry off every route
with a destination whose last cell, beyond the head cell, is no stand place under the stored value; the destination then follows from the new last cell, and the
route broken flag is set. Every other route stays. The write is a ROUTE event when it cuts a route, and none when it
cuts none (R26, R163, R168). That the identifier is one byte is the model's choice (entry 12). -/
def Obligations.StopGapCutsRoutes : Prop :=
  ∀ (s : State) (tag : Byte) (sent v : Nat), StoresCanonical s → s.ready = true → tag ≠ 0 →
    s.floor.mapState ≠ .checking → s.ctl.mode = .config → sent < 4294967296 → v = min (max sent 100) 2000 →
    v ≠ s.params.stopGap →
    let cut (c : Carrier) (pl : Placement) : Prop := pl.ahead ≠ [] ∧ pl.dest.isSome = true ∧
      s.floor.stands v c.profile.length (pl.ahead.getLastD pl.head).cell = false
    let cutsOne : Prop := ∃ x c pl, s.floor.carrier x = some c ∧ c.place = some pl ∧ cut c pl
    ∃ t, exec (.setParameter tag (beBytes 1 7 ++ beBytes 4 sent)) s = .next t ∧ t.params.stopGap = v ∧
      (cutsOne → t.link.classes.route = classAfter s.params.enableRoute s.link.classes.route) ∧
      (¬ cutsOne → t.link.classes.route = s.link.classes.route) ∧
      ∀ x c pl, s.floor.carrier x = some c → c.place = some pl →
        ∃ d q, t.floor.carrier x = some d ∧ d.place = some q ∧ q.head = pl.head ∧ q.granted = pl.granted ∧
          let newLast := (pl.ahead.dropLast.getLastD pl.head).cell
          (cut c pl → q.ahead = pl.ahead.dropLast ∧ d.routeBroken = true ∧
            q.dest = (if s.floor.stands v c.profile.length newLast then some (s.floor.len newLast - v) else none)) ∧
          (¬ cut c pl → q.ahead = pl.ahead ∧ q.dest = pl.dest ∧ d.routeBroken = c.routeBroken)

/-! ## The map -/

/-- An accepted Define cell stores the record, with live equal to defined values, no holders and no confirmation,
keeping an INTRUSION record; the map is DRAFT; every route through a cell that was defined before is cut before it,
with its destination set from the new last cell; no other cell changes. It is a ROUTE event when it cuts a route, and
none when it cuts none (R6, R8, R26, R86, R105, R163). Which link field
belongs to which connection point is the model's choice (entry 13), and so is that 1 is yes or set and 0 no or clear in
closed, detector present and keep-clear (entry 12). -/
def Obligations.DefineCellStores : Prop :=
  ∀ (s : State) (tag : Byte) (payload : List Byte) (f : DefineCellFields), StoresCanonical s → s.ready = true →
    tag ≠ 0 → s.floor.mapState ≠ .checking → s.ctl.mode = .config → s.floor.layoutLock = false →
    parseDefineCell payload = some f → f.badField = none →
    (∀ c, s.floor.cell f.id = some c → c.holders = []) →
    ∃ t notices r, exec (.defineCell tag payload) s = .next t ∧ SamePart s t ∧ t.ctl = s.ctl ∧
      Answered s t tag 0x0B payload .done [] notices ∧ AllNotices notices ∧
      t.floor.mapState = .draft ∧ t.floor.firstError = s.floor.firstError ∧ t.floor.layoutLock = false ∧
      t.floor.cell f.id = some r ∧ r.kind.num = f.kind ∧ r.length = f.length ∧
      r.detector = (f.detector == some 1) ∧ r.live = r.defined ∧
      r.defined.closed = (f.closed == some 1) ∧ r.defined.speedLimit = f.speedLimit.getD 4000 ∧
      r.defined.lane = (if f.kind = 0 then some
        ⟨(f.sense.bind senseOfNum).getD .both, f.keepClear == some 1, f.convoy.getD 1⟩ else none) ∧
      (∀ (i : Nat) (p : Point) (l : LinkField), r.kind.points[i]? = some p → f.links[i]? = some (some l) →
        ∃ q, pointOfNum l.point = some q ∧ (p, ⟨l.cell, q⟩) ∈ r.links) ∧
      (∀ (i : Nat) (p : Point), r.kind.points[i]? = some p → f.links[i]? = some none → ∀ q, (p, q) ∉ r.links) ∧
      r.amendment = none ∧ r.holders = [] ∧ r.lock = none ∧ r.raw = .unknown ∧ r.filtered = .unknown ∧
      r.filterTimer = none ∧ r.absence = .idle ∧ r.confirmed = false ∧ r.sweepPending = false ∧
      r.intrusion = (s.floor.cell f.id).bind (·.intrusion) ∧
      (∀ id, id ≠ f.id → t.floor.cell id = s.floor.cell id) ∧
      (let cutsOne : Prop := (s.floor.cell f.id).isSome = true ∧ ∃ x c pl, s.floor.carrier x = some c ∧
         c.place = some pl ∧ f.id ∈ pl.ahead.map (·.cell)
       (cutsOne → t.link.classes.route = classAfter s.params.enableRoute s.link.classes.route) ∧
       (¬ cutsOne → t.link.classes.route = s.link.classes.route)) ∧
      (∀ x c, s.floor.carrier x = some c →
        ((s.floor.cell f.id).isSome = true → ∀ pl j, c.place = some pl → indexOfCell pl.ahead f.id = some j →
          let last := ((pl.ahead.take j).getLastD pl.head).cell
          ∃ d q, t.floor.carrier x = some d ∧ d.own = c.own ∧ d.routeBroken = true ∧ d.place = some q ∧
            q.ahead = pl.ahead.take j ∧ q.dest = if t.floor.stands s.params.stopGap c.profile.length last then
              some (t.floor.len last - s.params.stopGap) else none) ∧
        ((s.floor.cell f.id = none ∨ ∀ pl, c.place = some pl → indexOfCell pl.ahead f.id = none) →
          t.floor.carrier x = some c))

/-- Commit map begins a check of at most 30 ms and answers CHECKING; its end makes the map VALID or INVALID with the
first error found, a ROUTE event; Lock layout, on a VALID map, sets the layout lock and nothing else (R10 to R12,
R14). How long the check takes is a free value (entry 3). -/
def Obligations.MapCheckBeginsAndEnds : Prop :=
  ∀ (s : State) (tag : Byte), s.ready = true →
    (tag ≠ 0 → s.ctl.mode = .config → s.floor.mapState = .draft ∨ s.floor.mapState = .invalid →
      ∃ t d, exec (.commitMap tag []) s = .next t ∧ d ≤ 30 ∧
        OnlyLink { s with
          free := s.free + 1
          floor := { s.floor with mapState := .checking, mapCheck := some ⟨s.clock.siteTime, d⟩ } } t ∧
        t.link.classes = s.link.classes ∧
        Answered s t tag 0x0C [] .done [.num 1 2] []) ∧
    (s.floor.mapState = .checking →
      ∃ t, exec .mapCheckEnd s = .next t ∧ SamePart s t ∧ t.ctl = s.ctl ∧
        t.floor = { s.floor with
          mapState := if mapCheck s.floor = none then .valid else .invalid
          firstError := mapCheck s.floor
          mapCheck := none } ∧
        Told s t (routeNotices s t .mapCheck) ∧
        t.link.classes = { s.link.classes with
          route := classAfter s.params.enableRoute s.link.classes.route }) ∧
    (tag ≠ 0 → s.ctl.mode = .config → s.floor.mapState = .valid →
      ∃ t, exec (.lockLayout tag []) s = .next t ∧
        OnlyLink { s with floor := { s.floor with layoutLock := true } } t ∧ t.link.classes = s.link.classes ∧
        Answered s t tag 0x0D [] .done [] [])

/-- What the map check finds: no error exactly when every defined cell passes the six tests; otherwise the first test
that the first failing cell fails, in the order of the rule, with the first connection point that fails it where the
test is of a link (R11). -/
def Obligations.MapCheckMeaning : Prop :=
  ∀ f : Floor,
    let undefined (_ : Nat × Cell) (_ : Point) (l : LinkRef) : Prop := f.cell l.cell = none
    let oneWay (e : Nat × Cell) (p : Point) (l : LinkRef) : Prop :=
      ∀ d, f.cell l.cell = some d → (l.point, ⟨e.1, p⟩) ∉ d.links
    let selfLink (e : Nat × Cell) (_ : Point) (l : LinkRef) : Prop := l.cell = e.1
    let few (e : Nat × Cell) : Prop := e.2.links.length < if e.2.kind = .crossing then 2 else 1
    let long (e : Nat × Cell) : Prop := ∃ l, e.2.defined.lane = some l ∧ e.2.length / 1000 < l.convoy
    let deadEnd (e : Nat × Cell) : Prop := (∃ q, (.a, q) ∈ e.2.links) ∧ ∀ q, (.b, q) ∉ e.2.links
    let noneBad (e : Nat × Cell) (bad : Nat × Cell → Point → LinkRef → Prop) : Prop := ∀ x ∈ e.2.links, ¬ bad e x.1 x.2
    let linked (e : Nat × Cell) : Prop := noneBad e undefined ∧ noneBad e oneWay ∧ noneBad e selfLink
    let passes (e : Nat × Cell) : Prop :=
      linked e ∧ ¬ few e ∧ ¬ long e ∧ (e.2.kind = .dock → deadEnd e)
    let firstLink (e : Nat × Cell) (bad : Nat × Cell → Point → LinkRef → Prop) (reason : MapReason) (r : MapError) :
        Prop := ∃ before x after, e.2.links = before ++ x :: after ∧ (∀ y ∈ before, ¬ bad e y.1 y.2) ∧
      bad e x.1 x.2 ∧ r = ⟨e.1, reason, some x.1⟩
    let fails (e : Nat × Cell) (r : MapError) : Prop :=
      firstLink e undefined .undefinedNeighbour r ∨
      (noneBad e undefined ∧ firstLink e oneWay .notReciprocal r) ∨
      (noneBad e undefined ∧ noneBad e oneWay ∧ firstLink e selfLink .selfLink r) ∨
      (linked e ∧ few e ∧ r = ⟨e.1, .tooFewLinks, none⟩) ∨
      (linked e ∧ ¬ few e ∧ long e ∧ r = ⟨e.1, .convoyOverLength, none⟩) ∨
      (linked e ∧ ¬ few e ∧ ¬ long e ∧ e.2.kind = .dock ∧ ¬ deadEnd e ∧ r = ⟨e.1, .dockNotDeadEnd, none⟩)
    (mapCheck f = none ↔ ∀ e ∈ f.cells, passes e) ∧
    (∀ r, mapCheck f = some r ↔ ∃ before e after, f.cells = before ++ e :: after ∧
      (∀ x ∈ before, passes x) ∧ fails e r)

/-- The three outcomes of a taken Amend cell: an empty amendment cancels the pending one, one for a held cell becomes
pending in its place, and one for a vacant cell is applied at once to the live values of that cell (R118, R120,
R121). That 1 is yes or set and 0 no or clear in closed and keep-clear is the model's choice (entry 12). -/
def Obligations.AmendCellOutcomes : Prop :=
  ∀ (s : State) (tag : Byte) (payload : List Byte) (f : AmendCellFields) (c : Cell), s.ready = true → tag ≠ 0 →
    s.ctl.mode ≠ .lockdown → s.floor.mapState = .valid → parseAmendCell payload = some f → f.id < 384 →
    s.floor.cell f.id = some c → f.badField c = none →
    let a : Amendment := ⟨f.closed.map (· == 1), f.sense.bind senseOfNum, f.speedLimit, f.keepClear.map (· == 1),
      f.convoy⟩
    let empty : Prop := a = ⟨none, none, none, none, none⟩
    ∃ t notices rest, exec (.amendCell tag payload) s = .next t ∧ SamePart s t ∧ AllNotices notices ∧
      Answered s t tag 0x0E payload .done
        (.num 1 (if a = ⟨none, none, none, none, none⟩ then 2 else if c.holders = [] then 0 else 1) :: rest)
        notices ∧
      DefinitionsKept s.floor t.floor ∧ OthersKept [] s.floor t.floor ∧
      (empty → t.floor = s.floor.modCell f.id (fun k => { k with amendment := none })) ∧
      (¬ empty → c.holders ≠ [] → t.floor = s.floor.modCell f.id (fun k => { k with amendment := some a })) ∧
      (¬ empty → c.holders = [] → ∃ d, t.floor.cell f.id = some d ∧ d.amendment = none ∧
        d.live.closed = a.closed.getD c.live.closed ∧ d.live.speedLimit = a.speedLimit.getD c.live.speedLimit ∧
        d.live.lane = c.live.lane.map (fun l => ⟨a.sense.getD l.sense, a.keepClear.getD l.keepClear,
          a.convoy.getD l.convoy⟩) ∧
        (GridQuiet s → ∀ id, id ≠ f.id → (t.floor.cell id).map (·.live) = (s.floor.cell id).map (·.live)))

/-- What an amendment forbids when it is applied to a vacant cell, as one that closes it does: it forbids passing a cell
that is now closed, or whose sense no longer permits the direction, and ending on a cell that was a stand place for
the carrier and is no longer one. A waiting passage that it forbids is withdrawn, and another waits on or is granted;
a route that it forbids beyond the granted prefix is cut before the cell with the route broken flag set, its destination
then the new last cell's length less stop_gap when that is a stand place for the carrier, else none; every other route
keeps its entries and its destination. The application is a ROUTE event when it cuts a route, and none when it cuts none
(R26, R122 to R124, R163). That 1 is yes or set and 0 no or clear in closed and keep-clear is the model's choice
(entry 12). -/
def Obligations.ClosingAmendmentForbids : Prop :=
  ∀ (s : State) (tag : Byte) (payload : List Byte) (f : AmendCellFields) (c : Cell), StoresCanonical s →
    GridQuiet s → s.ready = true → tag ≠ 0 → s.ctl.mode ≠ .lockdown → s.floor.mapState = .valid →
    parseAmendCell payload = some f → f.id < 384 → s.floor.cell f.id = some c → f.badField c = none →
    c.holders = [] → f.amendment ≠ ⟨none, none, none, none, none⟩ →
    let new : Cell := { c with
      amendment := none
      live := ⟨(f.closed.map (· == 1)).getD c.live.closed, f.speedLimit.getD c.live.speedLimit,
        c.live.lane.map fun l => ⟨(f.sense.bind senseOfNum).getD l.sense, (f.keepClear.map (· == 1)).getD l.keepClear,
          f.convoy.getD l.convoy⟩⟩ }
    let forbidden (length : Nat) (entry : Point) (last : Prop) : Prop :=
      new.live.closed = true ∨
      (∃ l, new.live.lane = some l ∧ l.sense = if entry = .b then .aToB else .bToA) ∨
      (last ∧ c.stands s.params.stopGap length = true ∧ new.stands s.params.stopGap length = false)
    let cutsOne : Prop := ∃ x k pl j e, s.floor.carrier x = some k ∧ k.place = some pl ∧
      indexOfCell pl.ahead f.id = some j ∧ pl.ahead[j]? = some e ∧ pl.granted ≤ j + 1 ∧
      forbidden k.profile.length e.entry (j + 1 = pl.ahead.length)
    ∃ t, exec (.amendCell tag payload) s = .next t ∧
      (cutsOne → t.link.classes.route = classAfter s.params.enableRoute s.link.classes.route) ∧
      (¬ cutsOne → t.link.classes.route = s.link.classes.route) ∧
      (∀ x k p e, s.floor.carrier x = some k → k.passage = some p → x ∈ c.waiting →
        p.cells.find? (fun e => e.cell == f.id) = some e → ∃ d, t.floor.carrier x = some d ∧
          (forbidden k.profile.length e.entry (p.cells.getLast? = some e) → d.passage = none) ∧
          (¬ forbidden k.profile.length e.entry (p.cells.getLast? = some e) → d.passage = some p ∨
            ∀ pl, k.place = some pl → ∃ q, d.place = some q ∧ pl.granted + p.cells.length ≤ q.granted)) ∧
      (∀ x k pl, s.floor.carrier x = some k → k.place = some pl →
        ∃ d, t.floor.carrier x = some d ∧
          (∀ j e, indexOfCell pl.ahead f.id = some j → pl.ahead[j]? = some e →
            (pl.granted ≤ j + 1 ∧ forbidden k.profile.length e.entry (j + 1 = pl.ahead.length) →
              d.routeBroken = true ∧ ∃ q, d.place = some q ∧ q.ahead = pl.ahead.take j ∧
                let last := (q.ahead.getLastD pl.head).cell
                q.dest = if t.floor.stands s.params.stopGap k.profile.length last then
                  some (t.floor.len last - s.params.stopGap) else none) ∧
            (j + 1 < pl.granted ∨ ¬ forbidden k.profile.length e.entry (j + 1 = pl.ahead.length) →
              d.place.map (fun q => (q.ahead, q.dest)) = some (pl.ahead, pl.dest))) ∧
          (indexOfCell pl.ahead f.id = none → d.place.map (fun q => (q.ahead, q.dest)) = some (pl.ahead, pl.dest)))

/-! ## Detectors -/

/-- An accepted detector report: an equal level changes nothing; another becomes the raw level and starts the filter
timer, or, with filter_time 0, is offered to the filtered level at once, as at an expiry, with the filter timer as it
was: a level that the filtered level has already does nothing more; EMPTY confirms the cell and starts the absence timer
of a covered one; OCC ends the absence and latches INTRUSION exactly on a cell that is confirmed, open and without
holders, whose record was clear, a FAULT event that under HALT_ALL hands on hold cause FAULT in SERVICE and HOLD. The
reply shows the raw and the filtered level, confirmed and blocked as the event leaves them (R87, R90, R93, R106 to R109,
R112, R114, R163). The level bytes, OCC 1 and EMPTY 2, are entry 25, and the flag bytes of the reply, set 1 and clear 0,
entry 12. -/
def Obligations.DetectorReportTaken : Prop :=
  ∀ (s : State) (tag : Byte) (payload : List Byte) (f : DetectorReportFields) (c : Cell) (l : Level),
    s.ready = true → tag ≠ 0 → s.floor.mapState ≠ .checking → parseDetectorReport payload = some f →
    f.id < 384 → s.floor.cell f.id = some c → c.detector = true →
    (f.level = 1 ∧ l = .occ) ∨ (f.level = 2 ∧ l = .empty) →
    (c.raw = l → AnswersOnly (.detectorReport tag payload) s tag 0x11 payload .done
      [.num 1 c.raw.num, .num 1 c.filtered.num, .num 1 (boolNum c.confirmed),
        .num 1 (boolNum c.intrusion.isSome)]) ∧
    (c.raw ≠ l → 0 < s.params.filterTime →
      ∃ t, exec (.detectorReport tag payload) s = .next t ∧
        OnlyLink { s with floor := s.floor.modCell f.id fun k =>
          { k with raw := l, filterTimer := some ⟨s.clock.siteTime, s.params.filterTime⟩ } } t ∧
        Answered s t tag 0x11 payload .done
          [.num 1 l.num, .num 1 c.filtered.num, .num 1 (boolNum c.confirmed),
            .num 1 (boolNum c.intrusion.isSome)] []) ∧
    (c.raw ≠ l → s.params.filterTime = 0 →
      ∃ t notices d, exec (.detectorReport tag payload) s = .next t ∧ SamePart s t ∧
        t.floor.cell f.id = some d ∧
        Answered s t tag 0x11 payload .done [.num 1 d.raw.num, .num 1 d.filtered.num, .num 1 (boolNum d.confirmed),
          .num 1 (boolNum d.intrusion.isSome)] notices ∧
        AllNotices notices ∧ OthersKept [] s.floor t.floor ∧ DefinitionsKept s.floor t.floor ∧
        (let latched : Prop := l = .occ ∧ c.filtered ≠ .occ ∧ c.confirmed = true ∧ c.live.closed = false ∧
           c.holders = [] ∧ c.intrusion = none
         HaltAllActs s t (latched ∧ s.params.intrusion = .haltAll) ∧
         (latched → t.link.classes.fault = classAfter s.params.enableFault s.link.classes.fault) ∧
         (¬ latched → t.link.classes.fault = s.link.classes.fault)) ∧
        (c.filtered = l → OnlyLink { s with floor := s.floor.modCell f.id fun k => { k with raw := l } } t ∧
          t.link.classes = s.link.classes ∧ notices = []) ∧
        (l = .occ → c.filtered ≠ .occ → d.filterTimer = c.filterTimer ∧ d.raw = .occ ∧ d.filtered = .occ ∧
          d.absence = .idle ∧ d.confirmed = c.confirmed ∧ d.intrusion =
            (if c.confirmed = true ∧ c.live.closed = false ∧ c.holders = [] ∧ c.intrusion = none then
              some s.clock.siteTime else c.intrusion)) ∧
        (l = .empty → c.filtered ≠ .empty → GridQuiet s ∨ c.sweepPending = false →
          d.filterTimer = c.filterTimer ∧ d.raw = .empty ∧ d.filtered = .empty ∧ d.confirmed = true ∧
          d.intrusion = c.intrusion ∧ d.absence =
            (if s.floor.coverers f.id ≠ [] ∧ c.absence = .idle then
              .running ⟨s.clock.siteTime, s.params.absenceTime⟩ else c.absence)))

/-- The expiry of a filter timer: the timer stops and the filtered level takes the raw level. EMPTY confirms the cell
and starts the absence timer of a covered one; OCC ends the absence and latches INTRUSION exactly on a cell that is
confirmed, open and without holders, whose record was clear (R108, R109, R112, R114). A latched INTRUSION is a FAULT
event, and under HALT_ALL it hands on hold cause FAULT in SERVICE and HOLD (R87, R90, R93, R163). -/
def Obligations.FilterTimerOffers : Prop :=
  ∀ (s : State) (id : Nat) (c : Cell) (w : Timer), s.ready = true → s.floor.cell id = some c →
    c.filterTimer = some w → w.period ≤ elapsed s.clock.siteTime w.start →
    ∃ t notices d, exec (.filterTimerExpiry id) s = .next t ∧ SamePart s t ∧ Told s t notices ∧
      AllNotices notices ∧ OthersKept [] s.floor t.floor ∧ DefinitionsKept s.floor t.floor ∧
      t.floor.cell id = some d ∧
      (let latched : Prop := c.raw = .occ ∧ c.filtered ≠ .occ ∧ c.confirmed = true ∧ c.live.closed = false ∧
         c.holders = [] ∧ c.intrusion = none
       HaltAllActs s t (latched ∧ s.params.intrusion = .haltAll) ∧
       (latched → t.link.classes.fault = classAfter s.params.enableFault s.link.classes.fault) ∧
       (¬ latched → t.link.classes.fault = s.link.classes.fault)) ∧
      (c.raw = c.filtered → d = { c with filterTimer := none } ∧ t.ctl = s.ctl ∧
        t.floor.carriers = s.floor.carriers ∧ notices = [] ∧
        ∀ n, n ≠ id → t.floor.cell n = s.floor.cell n) ∧
      (c.raw = .occ → c.filtered ≠ .occ → d.filterTimer = none ∧ d.raw = .occ ∧ d.filtered = .occ ∧
        d.absence = .idle ∧ d.confirmed = c.confirmed ∧ d.intrusion =
          (if c.confirmed = true ∧ c.live.closed = false ∧ c.holders = [] ∧ c.intrusion = none then
            some s.clock.siteTime else c.intrusion)) ∧
      (c.raw = .empty → c.filtered ≠ .empty → GridQuiet s ∨ c.sweepPending = false →
        d.filterTimer = none ∧ d.raw = .empty ∧ d.filtered = .empty ∧ d.confirmed = true ∧
        d.intrusion = c.intrusion ∧ d.absence =
          (if s.floor.coverers id ≠ [] ∧ c.absence = .idle then
            .running ⟨s.clock.siteTime, s.params.absenceTime⟩ else c.absence))

/-- Declare clear, judged in the order of R110. When it is taken, an unconfirmed cell becomes confirmed with its levels
and timers as they were, and a confirmed one leaves everything as it was (R109, R110). That the confirmed flag of the
reply is sent as 1 is the model's choice (entry 12). -/
def Obligations.DeclareClearJudged : Prop :=
  ∀ (s : State) (tag : Byte) (payload : List Byte), s.ready = true → tag ≠ 0 →
    (payload.length ≠ 2 → AnswersOnly (.declareClear tag payload) s tag 0x12 payload .badLength []) ∧
    (∀ id, parseCellId payload = some id →
      (s.floor.mapState = .checking → AnswersOnly (.declareClear tag payload) s tag 0x12 payload .busy []) ∧
      (s.floor.mapState ≠ .checking →
        (s.ctl.mode = .lockdown → AnswersOnly (.declareClear tag payload) s tag 0x12 payload .locked []) ∧
        (s.ctl.mode ≠ .lockdown →
          (384 ≤ id → AnswersOnly (.declareClear tag payload) s tag 0x12 payload .badArgument [.num 1 1]) ∧
          (id < 384 → s.floor.cell id = none →
            AnswersOnly (.declareClear tag payload) s tag 0x12 payload .badArgument [.num 1 0xFF]) ∧
          (∀ c, id < 384 → s.floor.cell id = some c →
            (c.holders ≠ [] ∨ (c.detector = true ∧ c.filtered = .occ) →
              AnswersOnly (.declareClear tag payload) s tag 0x12 payload .notVacant []) ∧
            (c.holders = [] → (c.detector = true → c.filtered ≠ .occ) →
              (c.confirmed = true →
                AnswersOnly (.declareClear tag payload) s tag 0x12 payload .done [.num 1 1]) ∧
              (c.confirmed = false → GridQuiet s ∨ c.sweepPending = false →
                ∃ t notices d, exec (.declareClear tag payload) s = .next t ∧ SamePart s t ∧
                  Answered s t tag 0x12 payload .done [.num 1 1] notices ∧ AllNotices notices ∧
                  OthersKept [] s.floor t.floor ∧ DefinitionsKept s.floor t.floor ∧
                  t.floor.cell id = some d ∧ d.confirmed = true ∧ d.raw = c.raw ∧ d.filtered = c.filtered ∧
                  d.filterTimer = c.filterTimer ∧ d.absence = c.absence))))))

/-- The expiry of an absence timer: the timer is SPENT, and every carrier whose body covers the cell has MISMATCH
latched at this site time, where its record was clear; no other fault changes (R86, R114, R115). The faults latched
are a FAULT event (R87, R163). Under HALT_ONE and HALT_ALL each carrier newly latched that is ACTIVE is HALTED with
cause FAULT in CONFIG and SERVICE, and stays as it is in COMMISSION, HOLD and LOCKDOWN; HALT_ALL hands on hold cause
FAULT once, in SERVICE and HOLD (R90 to R92, R99). -/
def Obligations.AbsenceRaisesMismatch : Prop :=
  ∀ (s : State) (id : Nat) (c : Cell) (w : Timer), s.ready = true → s.floor.cell id = some c →
    c.absence = .running w → w.period ≤ elapsed s.clock.siteTime w.start →
    ∃ t notices, exec (.absenceTimerExpiry id) s = .next t ∧ SamePart s t ∧ Told s t notices ∧
      AllNotices notices ∧ DefinitionsKept s.floor t.floor ∧ OthersKept (s.floor.coverers id) s.floor t.floor ∧
      (c.sweepPending = false → ∃ d, t.floor.cell id = some d ∧ d.absence = .spent) ∧
      (∀ x k, s.floor.carrier x = some k → id ∈ k.covered s.floor →
        ∃ d, t.floor.carrier x = some d ∧
          tget d.faults 5 = some ((tget k.faults 5).getD ⟨s.clock.siteTime, .mismatch id, false⟩) ∧
          (∀ n, n ≠ 5 → tget d.faults n = tget k.faults n) ∧
          (k.state = .active → tget k.faults 5 = none → s.params.mismatch ≠ .note →
            s.ctl.mode = .config ∨ s.ctl.mode = .service → d.state = .halted ∧ d.haltedCause = .fault) ∧
          (k.state ≠ .active ∨ s.params.mismatch = .note ∨ tget k.faults 5 ≠ none ∨ s.ctl.mode = .commission ∨
              s.ctl.mode = .hold ∨ s.ctl.mode = .lockdown → t.ctl.mode = s.ctl.mode →
            d.state = k.state ∧ d.haltedCause = k.haltedCause)) ∧
      (let raised : Prop := ∃ x ∈ s.floor.coverers id, ∃ k, s.floor.carrier x = some k ∧ tget k.faults 5 = none
       HaltAllActs s t (raised ∧ s.params.mismatch = .haltAll) ∧
       (raised → t.link.classes.fault = classAfter s.params.enableFault s.link.classes.fault) ∧
       (¬ raised → t.link.classes.fault = s.link.classes.fault))

/-! ## Carriers -/

/-- An accepted Enrol makes an ENROLLED record with the profile clamped by R21 and answers the profile as stored,
CLAMPED when a value was changed; nothing else changes (R19 to R21). -/
def Obligations.EnrolStores : Prop :=
  ∀ (s : State) (tag : Byte) (payload : List Byte) (f : EnrolFields), s.ready = true → tag ≠ 0 →
    s.floor.mapState ≠ .checking → s.ctl.mode ≠ .lockdown → s.ctl.mode ≠ .hold →
    parseEnrol payload = some f → f.slot < 48 → s.floor.carrier f.slot = none →
    400 ≤ f.length → f.length ≤ 3000 → 100 ≤ f.decel → f.decel ≤ 5000 →
    let speed := if f.maxSpeed < 100 then 100 else if 4000 < f.maxSpeed then 4000 else f.maxSpeed
    let priority := if 3 < f.priority then 3 else f.priority
    ∃ t, exec (.enrol tag payload) s = .next t ∧
      OnlyLink { s with floor := { s.floor with carriers := t.floor.carriers } } t ∧
      t.link.classes = s.link.classes ∧ (∀ x, x ≠ f.slot → t.floor.carrier x = s.floor.carrier x) ∧
      (∃ d, t.floor.carrier f.slot = some d ∧ d.state = .enrolled ∧
        d.profile = ⟨f.length, speed, f.decel, priority⟩ ∧ d.place = none ∧ d.passage = none ∧ d.faults = [] ∧
        d.haltedCause = .none ∧ d.ceiling = 0 ∧ d.stalled = false ∧ d.routeBroken = false ∧
        d.queueRefused = false ∧ d.reportTimer = none) ∧
      Answered s t tag 0x13 payload (if speed = f.maxSpeed ∧ priority = f.priority then .done else .clamped)
        [.num 2 f.length, .num 2 speed, .num 2 f.decel, .num 1 priority] []

/-- An accepted Place makes the carrier ACTIVE at its head, entered by the end that its direction gives, with its
destination and reach there, and holder of the cell, which is confirmed and locked to its direction when it is a
LANE; the report timer starts in SERVICE and COMMISSION (R23 to R25, R42, R65). Its body comes to cover the cell, which
starts an absence timer that is IDLE while the filtered level is EMPTY, and one that is SPENT; every other cell's absence
timer stays (R114, R116). -/
def Obligations.PlaceStands : Prop :=
  ∀ (s : State) (tag : Byte) (payload : List Byte) (f : PlaceFields) (c : Carrier) (k : Cell) (dir : Direction),
    StoresCanonical s → GridQuiet s → s.ready = true → tag ≠ 0 → s.ctl.mode ≠ .lockdown → s.ctl.mode ≠ .hold →
    s.floor.mapState = .valid → parsePlace payload = some f → f.slot < 48 → f.cell < 384 →
    s.floor.carrier f.slot = some c → c.state = .enrolled → s.floor.cell f.cell = some k →
    (f.direction = 0 ∧ dir = .aToB) ∨ (f.direction = 1 ∧ dir = .bToA) →
    k.stands s.params.stopGap c.profile.length = true → c.profile.length ≤ f.offset → f.offset ≤ k.length →
    (∀ l, k.live.lane = some l → l.sense = .both ∨ (l.sense = .aToB ∧ dir = .aToB) ∨
      (l.sense = .bToA ∧ dir = .bToA)) →
    k.live.closed = false → k.intrusion = none → k.holders = [] →
    (k.confirmed = true ∨ k.detector = false ∨ k.filtered ≠ .empty) →
    ∃ t notices d, exec (.place tag payload) s = .next t ∧ SamePart s t ∧
      Answered s t tag 0x14 payload .done [] notices ∧ AllNotices notices ∧
      t.floor.carrier f.slot = some { c with
        state := .active
        ceiling := 0
        reportTimer := if s.ctl.mode = .service ∨ s.ctl.mode = .commission then
          some ⟨s.clock.siteTime, s.params.reportTimeout⟩ else none
        place := some
          ⟨⟨f.cell, if dir = .aToB then .a else .b⟩, f.offset, ⟨f.cell, f.offset, 0, true, s.clock.siteTime⟩,
            [], some f.offset, 1, [], ⟨f.cell, f.offset⟩⟩ } ∧
      t.floor.cell f.cell = some d ∧ d.confirmed = true ∧ d.holders.head? = some f.slot ∧
      d.lock = (if k.kind = .lane ∧ k.lock = none then some dir else k.lock) ∧ d.live = k.live ∧
      d.absence = absenceCovered s k ∧
      (∀ id, id ≠ f.cell → (t.floor.cell id).map (·.absence) = (s.floor.cell id).map (·.absence)) ∧
      OthersKept [f.slot] s.floor t.floor ∧ DefinitionsKept s.floor t.floor

/-- An accepted Set route or Extend route, one whose candidate list passes the validation of R27: the route is the
candidate with its destination, the stalled and route broken flags are clear, the head cell stays, and no other carrier's own state
changes (R28 to R30). A turnaround makes the entry point the other end and reflects the head offset by the cell's and
the carrier's length; a HALTED carrier's reach is then its reflected head, and the head stays otherwise (R30). A
waiting passage whose cells the new list has at its indices waits on or is granted in the event; another is withdrawn,
and a passage that waits after it was formed in the event (R28, R60). -/
def Obligations.RoutesReplaced : Prop :=
  ∀ (s : State) (tag : Byte) (payload : List Byte) (c : Carrier) (pl : Placement) (k : Candidate),
    GridQuiet s → s.ready = true → tag ≠ 0 → s.ctl.mode ≠ .lockdown → s.floor.mapState = .valid →
    (∀ f : SetRouteFields, parseSetRoute payload = some f → f.slot < 48 → (∀ n ∈ f.cells, n < 384) →
      s.floor.carrier f.slot = some c → c.state = .active ∨ c.state = .halted → c.place = some pl →
      validate s c pl f.cells (some f.dest) = .ok k →
      ∃ t notices d q, exec (.setRoute tag payload) s = .next t ∧ SamePart s t ∧
        Answered s t tag 0x15 payload .done [] notices ∧ AllNotices notices ∧
        t.floor.carrier f.slot = some d ∧ d.place = some q ∧ d.stalled = false ∧ d.routeBroken = false ∧
        q.ahead.map (·.cell) = f.cells.drop 1 ∧ q.dest = some f.dest ∧ q.head.cell = pl.head.cell ∧
        q.last = pl.last ∧ q.trail = pl.trail ∧ (k.turned = false → d.own = c.own) ∧
        (if k.turned then q.head = ⟨pl.head.cell, if pl.head.entry = .a then .b else .a⟩ ∧
            q.offset = s.floor.len pl.head.cell - pl.offset + c.profile.length ∧
            (c.state = .halted → q.reach = ⟨q.head.cell, q.offset⟩)
          else q.head = pl.head ∧ q.offset = pl.offset) ∧
        (∀ p, c.passage = some p →
          if ((k.ahead.drop (p.index - 1)).take p.cells.length).map (·.cell) = p.cells.map (·.cell) then
            d.passage = some p ∨ pl.granted + p.cells.length ≤ q.granted
          else ∀ p', d.passage = some p' → p'.queued = s.clock.siteTime ∧ p'.index = q.granted) ∧
        OthersKept [f.slot] s.floor t.floor ∧ DefinitionsKept s.floor t.floor) ∧
    (∀ f : ExtendRouteFields, parseExtendRoute payload = some f → f.slot < 48 → (∀ n ∈ f.cells, n < 384) →
      s.floor.carrier f.slot = some c → c.state = .active ∨ c.state = .halted → c.place = some pl →
      validate s c pl (pl.head.cell :: pl.ahead.map (·.cell) ++ f.cells) (extendDest f pl) = .ok k →
      ∃ t notices d q, exec (.extendRoute tag payload) s = .next t ∧ SamePart s t ∧
        Answered s t tag 0x16 payload .done [] notices ∧ AllNotices notices ∧
        t.floor.carrier f.slot = some d ∧ d.place = some q ∧ d.stalled = false ∧ d.routeBroken = false ∧
        q.ahead.map (·.cell) = pl.ahead.map (·.cell) ++ f.cells ∧
        q.dest = (if f.dest = none then pl.dest else f.dest) ∧ q.head.cell = pl.head.cell ∧
        q.last = pl.last ∧ q.trail = pl.trail ∧ (k.turned = false → d.own = c.own) ∧
        (if k.turned then q.head = ⟨pl.head.cell, if pl.head.entry = .a then .b else .a⟩ ∧
            q.offset = s.floor.len pl.head.cell - pl.offset + c.profile.length ∧
            (c.state = .halted → q.reach = ⟨q.head.cell, q.offset⟩)
          else q.head = pl.head ∧ q.offset = pl.offset) ∧
        (∀ p, c.passage = some p →
          if ((k.ahead.drop (p.index - 1)).take p.cells.length).map (·.cell) = p.cells.map (·.cell) then
            d.passage = some p ∨ pl.granted + p.cells.length ≤ q.granted
          else ∀ p', d.passage = some p' → p'.queued = s.clock.siteTime ∧ p'.index = q.granted) ∧
        OthersKept [f.slot] s.floor t.floor ∧ DefinitionsKept s.floor t.floor)

/-- What a legal step is: the step test answers NOT_LINKED where no link names the next cell, U_TURN where the links that
name it are at the point of entry alone, and else takes the first link in the order of the connection points that names
it elsewhere, which gives the entry point, SENSE_FORBIDDEN where the live sense of a LANE forbids that entry (R4; a LANE
linked to the cell at both ends is entry 28). What a stand place is: a LANE that is not keep-clear, a BAY or a DOCK, at
least as long as the carrier and stop_gap together (R5). What a body covers: the head cell and the trail cells with s
below the carrier's length (R31). What a validated route is: it begins at the head cell, has at most 32 entries, keeps the granted prefix, names no
cell twice and none of the trail, and takes each cell by a legal step, from the turned head where the carrier
turns around; past the granted prefix no cell is closed, a DOCK stands last alone, the last cell is a stand place
with the destination inside it and beyond the carrier's length, and of any eight entries ahead one is a stand
place (R27, R30). -/
def Obligations.ValidatedRouteIsSound : Prop :=
  (∀ (s : State) (id : Nat) (c : Cell) (p : Point) (n : Nat), StoresCanonical s → s.floor.cell id = some c →
    let linked : Prop := ∃ x ∈ c.links, x.2.cell = n
    (stepTest s.floor c p n = .notLinked ↔ ¬ linked) ∧
    (stepTest s.floor c p n = .uTurn ↔ linked ∧ ∀ x ∈ c.links, x.2.cell = n → x.1 = p) ∧
    (stepTest s.floor c p n = .senseForbidden ↔ ∃ x, IsExit c p n x ∧ ¬ SenseAllows s.floor n x.2.point) ∧
    (∀ q, stepTest s.floor c p n = .legal q ↔ ∃ x, IsExit c p n x ∧ x.2.point = q ∧ SenseAllows s.floor n q)) ∧
  (∀ (f : Floor) (stopGap length n : Nat), f.stands stopGap length n = true ↔ ∃ c, f.cell n = some c ∧
    ((c.kind = .lane ∧ ∀ l, c.live.lane = some l → l.keepClear = false) ∨ c.kind = .bay ∨ c.kind = .dock) ∧
    length + stopGap ≤ c.length) ∧
  (∀ (f : Floor) (c : Carrier) (pl : Placement) (id : Nat), c.place = some pl →
    (id ∈ pl.covered f c.profile.length ↔ BodyCovers f c id)) ∧
  (∀ (s : State) (id slot : Nat), StoresCanonical s →
    (slot ∈ s.floor.coverers id ↔ ∃ c, s.floor.carrier slot = some c ∧ BodyCovers s.floor c id)) ∧
  ∀ (s : State) (c : Carrier) (pl : Placement) (cells : List Nat) (dest : Option Nat) (k : Candidate),
    validate s c pl cells dest = .ok k →
    let stands (n : Nat) : Prop := s.floor.stands s.params.stopGap c.profile.length n = true
    cells = pl.head.cell :: k.ahead.map (·.cell) ∧ cells.length ≤ 32 ∧ pl.granted ≤ cells.length ∧
    cells.Nodup ∧ (∀ e ∈ k.ahead, e.cell ∉ pl.trail.map (·.cell)) ∧
    (∀ i e e', i + 1 < pl.granted → pl.ahead[i]? = some e → k.ahead[i]? = some e' → e'.cell = e.cell) ∧
    (∀ i e prev p n, k.ahead[i]? = some e →
      (⟨pl.head.cell, if k.turned then otherEnd pl.head.entry else pl.head.entry⟩ :: k.ahead)[i]? = some prev →
      s.floor.cell prev.cell = some p → s.floor.cell e.cell = some n →
      stepTest s.floor p prev.entry e.cell = .legal e.entry ∧
      (pl.granted ≤ i + 1 → n.live.closed = false) ∧ (n.kind = .dock → i + 1 = k.ahead.length)) ∧
    (∀ e ∈ k.ahead, (s.floor.cell e.cell).isSome = true) ∧
    (k.turned = true → pl.last.standstill = true ∧ pl.trail = [] ∧ pl.granted = 1 ∧
      ∃ h, s.floor.cell pl.head.cell = some h ∧ (h.kind = .bay ∨ h.kind = .dock)) ∧
    stands (k.ahead.getLastD pl.head).cell ∧
    (∃ d, dest = some d ∧ c.profile.length ≤ d ∧ d ≤ s.floor.len (k.ahead.getLastD pl.head).cell) ∧
    (∀ i, i + 8 ≤ k.ahead.length → ∃ j e, j < 8 ∧ k.ahead[i + j]? = some e ∧ stands e.cell)

/-- An accepted position report: the report is recorded with its site time; the head moves to the reported point when
it lies ahead in the head cell or in the granted prefix, to the far boundary of the last granted entry when it lies
in a route entry beyond, and not at all otherwise. The cells passed join the trail, and when the head has moved the
entries are kept whose distance s is less than the carrier's length plus release_margin, the others being released,
a cell passed over within the report among them (R31, R32); no route names a cell twice, its head cell included (R27,
HoldersStayBounded). Where the body comes to cover a cell, an absence timer that is IDLE while the filtered level
is EMPTY starts, and one that is SPENT; where the last body leaves, it is IDLE; every other stays, but for a cell swept in
the event (R111, R114, R116). The report timer starts again in SERVICE, COMMISSION and HOLD (R25); a LOST carrier is HALTED with cause
LAPSE, and stays so without a standstill or with a halting fault (R33, R103). Reach and ceiling of a carrier that is
ACTIVE are worked on the state the event leaves (R70, R77, R82). The reply carries the state, reach, ceiling and flags
that the event leaves, and the ceiling sent is the delivered ceiling (R83, R166). -/
def Obligations.PositionReportMovesHead : Prop :=
  ∀ (s : State) (tag : Byte) (payload : List Byte) (r : PositionFields) (c : Carrier) (pl : Placement) (k : Cell),
    s.ready = true → tag ≠ 0 → s.floor.mapState ≠ .checking → parsePosition payload = some r → r.slot < 48 →
    r.cell < 384 → s.floor.cell r.cell = some k → r.offset ≤ k.length → r.speed ≤ 6000 →
    s.floor.carrier r.slot = some c → c.state ≠ .enrolled → c.place = some pl →
    ((pl.head :: pl.ahead).map (·.cell)).Nodup →
    ∃ t notices d q, exec (.positionReport tag payload) s = .next t ∧ SamePart s t ∧
      t.floor.carrier r.slot = some d ∧ d.place = some q ∧ d.profile = c.profile ∧
      q.last = ⟨r.cell, r.offset, r.speed, r.standstill, s.clock.siteTime⟩ ∧
      (r.cell = pl.head.cell → q.head = pl.head ∧
        q.offset = (if pl.offset ≤ r.offset then r.offset else pl.offset)) ∧
      (r.cell ≠ pl.head.cell → ∀ j, indexOfCell pl.ahead r.cell = some j →
        (j + 1 < pl.granted → pl.ahead[j]? = some q.head ∧ q.offset = r.offset) ∧
        (pl.granted ≤ j + 1 → q.head = pl.lastGranted ∧ q.offset = s.floor.len pl.lastGranted.cell)) ∧
      (r.cell ≠ pl.head.cell → indexOfCell pl.ahead r.cell = none → q.head = pl.head ∧ q.offset = pl.offset) ∧
      (let passed : List Entry :=
         if r.cell = pl.head.cell then [] else match indexOfCell pl.ahead r.cell with
           | none => []
           | some j =>
             let n := if j + 1 < pl.granted then j + 1 else pl.granted - 1
             ((pl.head :: pl.ahead).take n).reverse
       let trail := passed ++ pl.trail
       let distance (i : Nat) : Nat := q.offset + s.floor.lenSum (trail.take i)
       let keep (i : Nat) : Prop := distance i < c.profile.length + s.params.releaseMargin
       if q.head = pl.head ∧ q.offset = pl.offset then q.trail = pl.trail else
         q.trail = (trail.zipIdx.filter fun x => decide (keep x.2)).map Prod.fst ∧
         ∀ i e m, trail[i]? = some e → ¬ keep i → s.floor.cell e.cell = some m → m.holders.count r.slot ≤ 1 →
           e.cell ∉ q.ahead.map (·.cell) → (∀ p, c.passage = some p → e.cell ∉ p.cells.map (·.cell)) →
           ∃ m', t.floor.cell e.cell = some m' ∧ r.slot ∉ m'.holders) ∧
      (StoresCanonical s → ∀ id m, s.floor.cell id = some m → ∃ m', t.floor.cell id = some m' ∧
        let was : Prop := BodyCovers s.floor c id
        let covers : Prop := BodyCovers t.floor d id
        let others : Prop := ∃ x o, x ≠ r.slot ∧ s.floor.carrier x = some o ∧ BodyCovers s.floor o id
        (was → ¬ covers → ¬ others → m'.absence = .idle) ∧
        (m.sweepPending = false ∨ m'.holders ≠ [] →
          (¬ was → covers → m'.absence = absenceCovered s m) ∧
          (was → covers ∨ others → m'.absence = m.absence) ∧ (¬ was → ¬ covers → m'.absence = m.absence))) ∧
      d.reportTimer = (if t.ctl.mode = .lockdown ∧ s.ctl.mode ≠ .lockdown then none
        else if s.ctl.mode = .service ∨ s.ctl.mode = .commission ∨ s.ctl.mode = .hold then
          some ⟨s.clock.siteTime, s.params.reportTimeout⟩ else c.reportTimer) ∧
      d.state ≠ .lost ∧ d.state ≠ .enrolled ∧
      (c.state = .lost → r.standstill = false ∨ (s.ctl.mode ≠ .service ∧ s.ctl.mode ≠ .commission) ∨
          (∃ x ∈ c.faults, s.params.action x.1 ≠ .note) → d.state = .halted ∧ d.haltedCause = .lapse) ∧
      (d.state = .active → q.reach = q.pointAt t.floor (q.freeDistance t.floor s.params r.slot) ∧
        d.ceiling = d.ceilingAt t.floor s.params t.ctl.mode q (q.freeDistance t.floor s.params r.slot)) ∧
      d.delivered = d.ceiling ∧
      Answered s t tag 0x17 payload .done [.num 1 d.state.num, .num 2 q.reach.cell, .num 2 q.reach.offset,
        .num 2 d.ceiling, .num 1 ((if d.passage.isSome then 1 else 0) + (if d.stalled then 2 else 0) +
          (if d.routeBroken then 4 else 0) + 8 * d.haltedCause.num)] notices ∧ AllNotices notices ∧
      OthersKept [r.slot] s.floor t.floor ∧ DefinitionsKept s.floor t.floor

/-- The faults that an accepted position report latches, each where its record was clear: OVERSPEED of an ACTIVE
carrier against the delivered ceiling, OVERRUN beyond the granted prefix or the reach, REGRESS behind the jitter
tolerance or in the trail, JUMP beyond the allowed advance or off the route; a record already latched keeps its
content and notes that a report has come since (R33 to R36, R86, R96, R97). The faults newly latched are a FAULT event
(R87, R163). Where one of their kinds is set to HALT_ONE or HALT_ALL, an ACTIVE carrier is HALTED with cause FAULT in
CONFIG and SERVICE; in COMMISSION, HOLD and LOCKDOWN it is not. HALT_ALL hands on hold cause FAULT, in SERVICE and
HOLD (R90 to R92). -/
def Obligations.PositionReportFaults : Prop :=
  ∀ (s : State) (tag : Byte) (payload : List Byte) (r : PositionFields) (c : Carrier) (pl : Placement) (k : Cell),
    s.ready = true → tag ≠ 0 → s.floor.mapState ≠ .checking → parsePosition payload = some r → r.slot < 48 →
    r.cell < 384 → s.floor.cell r.cell = some k → r.offset ≤ k.length → r.speed ≤ 6000 →
    s.floor.carrier r.slot = some c → c.state ≠ .enrolled → c.place = some pl →
    let p := s.params
    let now := s.clock.siteTime
    let index := indexOfCell pl.ahead r.cell
    let onHead : Prop := r.cell = pl.head.cell
    let advance : Option Nat :=
      if r.cell = pl.head.cell then (if pl.offset ≤ r.offset then some (r.offset - pl.offset) else none)
      else index.map fun j => s.floor.len pl.head.cell - pl.offset + s.floor.lenSum (pl.ahead.take j) + r.offset
    let allowed := c.profile.maxSpeed * min (elapsed now pl.last.time) 60000 / 1000 + p.jumpAllowance
    let reachAt := (pl.aheadOf s.floor pl.reach).getD 0
    let latched (d : Carrier) (n : Nat) (x : FaultDetail) : Prop := tget d.faults n = some ⟨now, x, false⟩
    ∃ t d, exec (.positionReport tag payload) s = .next t ∧ t.floor.carrier r.slot = some d ∧
      (∀ n x, tget c.faults n = some x → tget d.faults n = some { x with reportSince := true }) ∧
      (tget c.faults 0 = none → tget d.faults 0 = none) ∧ (tget c.faults 5 = none → tget d.faults 5 = none) ∧
      (tget c.faults 1 = none →
        if c.state = .active ∧ c.delivered + p.speedTolerance < r.speed then
          latched d 1 (.overspeed r.speed c.delivered)
        else tget d.faults 1 = none) ∧
      (tget c.faults 2 = none →
        (¬ onHead → ∀ j, index = some j → pl.granted ≤ j + 1 → latched d 2 (.overrun r.cell r.offset none)) ∧
        (onHead ∨ (∀ j, index = some j → j + 1 < pl.granted) →
          if ∃ a, advance = some a ∧ reachAt + p.overrunTolerance < a then
            latched d 2 (.overrun r.cell r.offset (some pl.reach))
          else tget d.faults 2 = none)) ∧
      (tget c.faults 3 = none →
        if (onHead ∧ r.offset + p.jitterTolerance < pl.offset) ∨
            (¬ onHead ∧ index = none ∧ r.cell ∈ pl.trail.map (·.cell)) then
          latched d 3 (.regress r.cell r.offset)
        else tget d.faults 3 = none) ∧
      (tget c.faults 4 = none →
        (∀ a, advance = some a → if allowed < a then latched d 4 (.jump r.cell r.offset (some (a, allowed)))
          else tget d.faults 4 = none) ∧
        (advance = none → if onHead ∨ r.cell ∈ pl.trail.map (·.cell) then tget d.faults 4 = none
          else latched d 4 (.jump r.cell r.offset none))) ∧
      (let fresh (n : Nat) : Prop := tget c.faults n = none ∧ tget d.faults n ≠ none
       let halts : Prop := ∃ n, fresh n ∧ p.action n ≠ .note
       (c.state = .active → halts → s.ctl.mode = .config ∨ s.ctl.mode = .service →
         d.state = .halted ∧ d.haltedCause = .fault) ∧
       (c.state = .active → ¬ halts ∨ s.ctl.mode = .commission ∨ s.ctl.mode = .hold ∨ s.ctl.mode = .lockdown →
         GridQuiet s → d.state = .active ∧ d.haltedCause = c.haltedCause) ∧
       HaltAllActs s t (∃ n, fresh n ∧ p.action n = .haltAll) ∧
       ((∃ n, fresh n) → t.link.classes.fault = classAfter p.enableFault s.link.classes.fault) ∧
       ((∀ n, ¬ fresh n) → t.link.classes.fault = s.link.classes.fault))

/-- A HALTED carrier that reports its recorded head: with standstill, in SERVICE or COMMISSION, and no latched fault
set to halt, it becomes ACTIVE with halted cause NONE; when any of the three fails it stays HALTED with ceiling 0
(R103). -/
def Obligations.StandstillReturnsActive : Prop :=
  ∀ (s : State) (tag : Byte) (payload : List Byte) (r : PositionFields) (c : Carrier) (pl : Placement) (k : Cell),
    GridQuiet s → s.ready = true → tag ≠ 0 → s.floor.mapState ≠ .checking → parsePosition payload = some r →
    r.slot < 48 → r.cell < 384 → s.floor.cell r.cell = some k → r.offset ≤ k.length → r.speed ≤ 6000 →
    s.floor.carrier r.slot = some c → c.state = .halted → c.place = some pl →
    r.cell = pl.head.cell → r.offset = pl.offset →
    ∃ t d, exec (.positionReport tag payload) s = .next t ∧ t.floor.carrier r.slot = some d ∧
      if r.standstill = true ∧ (s.ctl.mode = .service ∨ s.ctl.mode = .commission) ∧
          (∀ x ∈ c.faults, s.params.action x.1 = .note) then
        d.state = .active ∧ d.haltedCause = .none
      else d.state = .halted ∧ d.haltedCause = c.haltedCause ∧ d.ceiling = 0

/-- An accepted Retire empties the slot, releases the carrier from every cell it holds, and sweeps the cells that no
other carrier holds where its body covered them or a sweep was pending: they are unconfirmed with both levels UNKNOWN
and both timers at rest. Where other carriers still hold such a cell, its sweep is pending, and it keeps its
confirmation and its levels; so does a cell that was held without being covered and has no sweep pending. Their absence
timer is IDLE where the last body has left, and else stays. An ENROLLED
carrier leaves no other trace (R38, R39, R109, R111, R113, R114, R116). -/
def Obligations.RetireEmptiesSlot : Prop :=
  ∀ (s : State) (tag : Byte) (payload : List Byte) (slot : Nat) (c : Carrier), s.ready = true → tag ≠ 0 →
    s.floor.mapState ≠ .checking → s.ctl.mode ≠ .lockdown → parseByte payload = some slot → slot < 48 →
    s.floor.carrier slot = some c →
    (c.state = .active ∨ c.state = .halted → ∃ pl, c.place = some pl ∧ pl.last.standstill = true) →
    (∀ pl, c.place = some pl → hasFollower s.floor slot pl = false) →
    ∃ t notices, exec (.retire tag payload) s = .next t ∧ SamePart s t ∧
      Answered s t tag 0x19 payload .done [] notices ∧ AllNotices notices ∧
      t.floor.carrier slot = none ∧ OthersKept [slot] s.floor t.floor ∧ DefinitionsKept s.floor t.floor ∧
      (c.place = none → t.floor = { s.floor with carriers := t.floor.carriers } ∧ notices = [] ∧
        ∀ x, x ≠ slot → t.floor.carrier x = s.floor.carrier x) ∧
      (∀ pl id k, c.place = some pl → s.floor.cell id = some k → id ∈ pl.held → k.holders.count slot ≤ 1 →
        ∃ d, t.floor.cell id = some d ∧ slot ∉ d.holders ∧
          (let toSweep : Prop := id ∈ pl.covered s.floor c.profile.length ∨ k.sweepPending = true
           (toSweep → k.holders = [slot] → d.confirmed = false ∧ d.sweepPending = false ∧ d.raw = .unknown ∧
             d.filtered = .unknown ∧ d.filterTimer = none ∧ d.absence = .idle) ∧
           (toSweep → (∃ x ∈ k.holders, x ≠ slot) → GridQuiet s → d.confirmed = k.confirmed ∧
             d.sweepPending = true ∧ d.raw = k.raw ∧ d.filtered = k.filtered ∧ d.absence =
               if id ∈ pl.covered s.floor c.profile.length ∧ (∀ x ∈ s.floor.coverers id, x = slot) then .idle
               else k.absence) ∧
           (¬ toSweep → d.confirmed = k.confirmed ∧ d.sweepPending = false ∧ d.raw = k.raw ∧
             d.filtered = k.filtered ∧ d.absence = k.absence)))

/-- The expiry of a report timer: the carrier is LOST with halted cause LAPSE, ceiling 0 and no passage, its timer is
stopped, and LAPSE is latched with the time of the last report where its record was clear (R25, R85, R94, R98). Its
halt shrink releases the granted cells beyond the lesser of the recorded reach and the stopping distance, and the reach
falls to it (R80, R94, R95). A LAPSE newly latched is a FAULT event, and under HALT_ALL it hands on hold cause FAULT in
SERVICE and HOLD (R87, R90, R92, R163). -/
def Obligations.ReportTimerLoses : Prop :=
  ∀ (s : State) (slot : Nat) (c : Carrier) (pl : Placement) (w : Timer), s.ready = true →
    s.floor.carrier slot = some c → c.place = some pl → c.reportTimer = some w →
    w.period ≤ elapsed s.clock.siteTime w.start →
    ∃ t notices d, exec (.reportTimerExpiry slot) s = .next t ∧ SamePart s t ∧ Told s t notices ∧
      AllNotices notices ∧ t.floor.carrier slot = some d ∧ d.state = .lost ∧ d.haltedCause = .lapse ∧
      d.ceiling = 0 ∧ d.passage = none ∧ d.reportTimer = none ∧ d.profile = c.profile ∧
      d.place.map (fun q => (q.head, q.offset, q.last, q.trail)) = some (pl.head, pl.offset, pl.last, pl.trail) ∧
      tget d.faults 0 = some ((tget c.faults 0).getD ⟨s.clock.siteTime, .lapse pl.last.time, false⟩) ∧
      (∀ n, n ≠ 0 → tget d.faults n = tget c.faults n) ∧
      (ReachGranted s.floor pl → Shrunk s t slot c pl) ∧
      HaltAllActs s t (tget c.faults 0 = none ∧ s.params.lapse = .haltAll) ∧
      (tget c.faults 0 = none → t.link.classes.fault = classAfter s.params.enableFault s.link.classes.fault) ∧
      (tget c.faults 0 ≠ none → t.link.classes.fault = s.link.classes.fault) ∧
      OthersKept [slot] s.floor t.floor ∧ DefinitionsKept s.floor t.floor

/-- A Clear faults unlatches exactly the records of its target whose condition has gone: LAPSE when a report has come
since, OVERSPEED when the last reported speed is within the ceiling and tolerance, REGRESS and JUMP always,
OVERRUN and MISMATCH by the place of the last report and the coverage now, INTRUSION when the filtered level is
not OCC. Targets are one slot, one cell, or all; a slot without a latched record, EMPTY or ENROLLED ones among them, is
answered with an empty list and changes nothing (R100 to R102; the encoding of the target is entry 14). After a
turnaround the offset of the last report is measured on the present path, which is entry 35. -/
def Obligations.ClearFaultsUnlatches : Prop :=
  ∀ (s : State) (tag : Byte), StoresCanonical s → s.ready = true → tag ≠ 0 → s.floor.mapState ≠ .checking →
    s.ctl.mode ≠ .lockdown →
    let gone (c : Carrier) (r : FaultRecord) : Prop := match r.detail with
      | .lapse _ => r.reportSince = true
      | .overspeed _ _ => ∀ pl, c.place = some pl → pl.last.speed ≤ c.ceiling + s.params.speedTolerance
      | .overrun _ _ _ => ∃ pl, c.place = some pl ∧ pl.last.cell ∈ pl.held ∧
        ∀ a, pl.aheadOf s.floor ⟨pl.last.cell, pl.last.offset⟩ = some a →
          a ≤ (pl.aheadOf s.floor pl.reach).getD 0 + s.params.overrunTolerance
      | .regress _ _ => True
      | .jump _ _ _ => True
      | .mismatch id => (∀ k, s.floor.cell id = some k → k.filtered ≠ .empty) ∨ id ∉ c.covered s.floor
    let carrierCleared (c : Carrier) (t : State) (x : Nat) : Prop := ∃ d, t.floor.carrier x = some d ∧
      ∀ n r, tget c.faults n = some r →
        (gone c r → tget d.faults n = none) ∧ (¬ gone c r → tget d.faults n = some r)
    let cellCleared (k : Cell) (t : State) (id : Nat) : Prop := ∃ d, t.floor.cell id = some d ∧
      d.intrusion = if k.filtered = .occ then k.intrusion else none
    (∀ slot c, slot < 48 → s.floor.carrier slot = some c →
      ∃ t content, exec (.clearFaults tag [0, BitVec.ofNat 8 slot]) s = .next t ∧ SamePart s t ∧ t.ctl = s.ctl ∧
        Answered s t tag 0x1B [0, BitVec.ofNat 8 slot] .done content [] ∧ carrierCleared c t slot ∧
        t.floor = { s.floor with carriers := t.floor.carriers } ∧
        ∀ x, x ≠ slot → t.floor.carrier x = s.floor.carrier x) ∧
    (∀ slot, slot < 48 → (∀ c, s.floor.carrier slot = some c → c.faults = []) →
      AnswersOnly (.clearFaults tag [0, BitVec.ofNat 8 slot]) s tag 0x1B [0, BitVec.ofNat 8 slot] .done
        [.list 1 0 []]) ∧
    (∀ id k, id < 384 → s.floor.cell id = some k →
      ∃ t content notices, exec (.clearFaults tag (1 :: beBytes 2 id)) s = .next t ∧ SamePart s t ∧
        Answered s t tag 0x1B (1 :: beBytes 2 id) .done content notices ∧ AllNotices notices ∧ cellCleared k t id ∧
        OthersKept [] s.floor t.floor ∧ DefinitionsKept s.floor t.floor) ∧
    (∃ t content notices, exec (.clearFaults tag [2]) s = .next t ∧ SamePart s t ∧
      Answered s t tag 0x1B [2] .done content notices ∧ AllNotices notices ∧
      DefinitionsKept s.floor t.floor ∧
      (∀ x c, s.floor.carrier x = some c → carrierCleared c t x) ∧
      ∀ id k, s.floor.cell id = some k → cellCleared k t id)

/-! ## Passages -/

/-- The wait limit withdraws the passage and stalls the carrier, a ROUTE event (R57, R59). The promotion gives the
passage effective priority 3 and takes place once: one of priority 3 stays as it stands in every list, and another
waits with its new priority or has been granted in the same event (R58). -/
def Obligations.PassageTimersAct : Prop :=
  ∀ (s : State) (slot : Nat) (c : Carrier) (p : Passage), s.ready = true → s.floor.carrier slot = some c →
    c.passage = some p →
    (p.waitPeriod ≤ elapsed s.clock.siteTime p.queued →
      ∃ t notices d, exec (.waitLimit slot) s = .next t ∧ SamePart s t ∧ Told s t notices ∧ AllNotices notices ∧
        t.floor.carrier slot = some d ∧ d.passage = none ∧ d.stalled = true ∧ d.own = c.own ∧
        t.link.classes.route = classAfter s.params.enableRoute s.link.classes.route ∧
        OthersKept [] s.floor t.floor ∧ DefinitionsKept s.floor t.floor) ∧
    (∀ period, p.promotePeriod = some period → period ≤ elapsed s.clock.siteTime p.queued →
      (p.priority = 3 → ∃ t, exec (.promotion slot) s = .next t ∧ Told s t [] ∧ SamePart s t ∧ t.ctl = s.ctl ∧
        t.floor = s.floor.modCarrier slot (fun k => { k with passage := some { p with promotePeriod := none } })) ∧
      (p.priority ≠ 3 → GridQuiet s → ∀ pl, c.place = some pl →
        ∃ t notices d q, exec (.promotion slot) s = .next t ∧ SamePart s t ∧ Told s t notices ∧
          AllNotices notices ∧ t.floor.carrier slot = some d ∧ d.place = some q ∧
          (d.passage = some { p with priority := 3, promotePeriod := none } ∨
            pl.granted + p.cells.length ≤ q.granted) ∧
          OthersKept [] s.floor t.floor ∧ DefinitionsKept s.floor t.floor))

/-- When a waiting passage is granted: every one of its cells is open, unblocked and confirmed, has the passage first
in its list, and has no holder, or is a LANE locked in the passage's direction with fewer holders than its convoy
limit. An examination grants the first passage of the cell in that case, unless a halt shrink of the event is about
to withdraw it, and else changes nothing (R44, R52, R53, R56, R95). -/
def Obligations.GrantConditions : Prop :=
  (∀ (f : Floor) (slot : Nat) (p : Passage), canGrant f slot p = true ↔
    ∀ e ∈ p.cells, ∃ c, f.cell e.cell = some c ∧ c.live.closed = false ∧ c.intrusion = none ∧ c.confirmed = true ∧
      c.waiting.head? = some slot ∧
      (c.holders = [] ∨ ∃ l, c.live.lane = some l ∧ c.holders.length < l.convoy ∧
        c.lock = some (if e.entry = .b then .bToA else .aToB))) ∧
  (∀ (ev : FloorEvent) (id : Nat),
    let granted (slot : Nat) (p : Passage) : Prop := ∃ c k, ev.fl.cell id = some c ∧
      c.waiting.head? = some slot ∧ ev.fl.carrier slot = some k ∧ k.passage = some p ∧ canGrant ev.fl slot p = true ∧
      slot ∉ ev.acc.barred
    (∀ slot p, granted slot p → (examineCell id ev).fl = grantFloor slot p ev.fl) ∧
    ((∀ slot p, ¬ granted slot p) → (examineCell id ev).fl = ev.fl))

/-- A grant is whole: every cell of the passage gains the carrier as its last holder, and a LANE without a lock its
direction; the passage leaves every waiting list and its record is discarded; the granted count grows by its
cells; the gridlock records with the carrier go; no other cell's holders and no other carrier change. A withdrawal
takes the passage out of every list with its record and the gridlock records, and its cells are to be examined. A
release takes the carrier out of one cell's holders: the last holder takes the lock with it, then the pending
amendment is applied, then a pending sweep, and the cell is to be examined; a release that finds the carrier absent
does nothing (R41, R42, R54, R60, R63, R111, R113, R121, R134). -/
def Obligations.GrantIsWhole : Prop :=
  (∀ (f : Floor) (slot : Nat) (c : Carrier) (pl : Placement) (p : Passage), f.carrier slot = some c →
    c.place = some pl → c.passage = some p → (p.cells.map (·.cell)).Nodup →
    let g := grantFloor slot p f
    (∀ e ∈ p.cells, ∀ k, f.cell e.cell = some k → g.cell e.cell = some { k with
      waiting := k.waiting.erase slot
      holders := k.holders ++ [slot]
      lock := if k.kind = .lane ∧ k.lock = none then some (if e.entry = .b then .bToA else .aToB) else k.lock }) ∧
    (∀ id k, id ∉ p.cells.map (·.cell) → f.cell id = some k →
      g.cell id = some { k with waiting := k.waiting.erase slot }) ∧
    g.carrier slot = some { c with
      passage := none
      place := some { pl with granted := pl.granted + p.cells.length } } ∧
    (∀ x, x ≠ slot → g.carrier x = f.carrier x) ∧
    (∀ r, r ∈ g.gridlocks ↔ r ∈ f.gridlocks ∧ slot ∉ r.members) ∧
    g.mapState = f.mapState ∧ g.queueSeq = f.queueSeq ∧ g.gridOverflow = f.gridOverflow) ∧
  (∀ (ev : FloorEvent) (slot : Nat),
    (ev.fl.waitingPassage slot = none → withdraw slot ev = ev) ∧
    (∀ c p, ev.fl.carrier slot = some c → c.passage = some p →
      let g := (withdraw slot ev).fl
      (∀ id, g.cell id = (ev.fl.cell id).map fun k => { k with waiting := k.waiting.erase slot }) ∧
      g.carrier slot = some { c with passage := none } ∧ (∀ x, x ≠ slot → g.carrier x = ev.fl.carrier x) ∧
      (∀ r, r ∈ g.gridlocks ↔ r ∈ ev.fl.gridlocks ∧ slot ∉ r.members) ∧
      (withdraw slot ev).acc.work = ev.acc.work ++ p.cells.map (·.cell))) ∧
  (∀ (ctx : Ctx) (slot id : Nat) (ev : FloorEvent) (k : Cell), ev.fl.cell id = some k →
    let r := release ctx slot id ev
    let left := k.holders.erase slot
    (slot ∉ k.holders → r = ev) ∧
    (slot ∈ k.holders → id ∈ r.acc.work ∧
      (left ≠ [] → r.fl.cell id = some { k with holders := left }) ∧
      (left = [] → k.amendment = none → r.fl.cell id = some (if k.sweepPending then
          { k with
            holders := []
            lock := none
            confirmed := false
            sweepPending := false
            raw := .unknown
            filtered := .unknown
            filterTimer := none
            absence := .idle }
        else { k with holders := [], lock := none })) ∧
      (left ≠ [] ∨ k.amendment = none →
        (∀ n, n ≠ id → r.fl.cell n = ev.fl.cell n) ∧ r.fl.carriers = ev.fl.carriers) ∧
      (left = [] → ∀ a, k.amendment = some a → ∃ m, r.fl.cell id = some m ∧ m.holders = [] ∧ m.lock = none ∧
        m.amendment = none ∧ m.live.closed = a.closed.getD k.live.closed ∧
        m.live.speedLimit = a.speedLimit.getD k.live.speedLimit ∧
        m.live.lane = k.live.lane.map (fun l => ⟨a.sense.getD l.sense, a.keepClear.getD l.keepClear,
          a.convoy.getD l.convoy⟩) ∧
        m.confirmed = (k.confirmed && !k.sweepPending) ∧ m.sweepPending = false ∧
        (k.sweepPending = true → m.raw = .unknown ∧ m.filtered = .unknown ∧ m.filterTimer = none ∧
          m.absence = .idle))))

/-- Formation and queuing. A carrier forms a passage when it is ACTIVE in SERVICE or COMMISSION, has no waiting passage
and no stalled flag, its route has an ungranted entry that is a stand place or lies before one, and its free distance
is less than its lookahead (R45). The passage runs from the first ungranted entry through the first stand place among
eight; where there is none, the route broken flag is set (R46, R47). A full list of one of its cells refuses it and
sets the queue refused flag (R51); else it is inserted in the list of each of its cells, takes the queue sequence and
the site time, and the counter advances (R48, R49, R57). Insertion keeps a waiting list ordered by effective priority,
highest first, and then by queue sequence, lowest first (R50). -/
def Obligations.WaitingListOrder : Prop :=
  (∀ (f : Floor) (slot : Nat) (q : Passage) (l : List Nat),
    let ordered (x y : Nat) : Prop := ∀ a b, f.waitingPassage x = some a → f.waitingPassage y = some b →
      b.priority < a.priority ∨ (b.priority = a.priority ∧ a.seq ≤ b.seq)
    f.waitingPassage slot = some q → (∀ x ∈ l, (f.waitingPassage x).isSome = true) → l.Pairwise ordered →
    (insertWaiting f slot q l).Pairwise ordered ∧ (insertWaiting f slot q l).Perm (slot :: l)) ∧
  (∀ (ctx : Ctx) (f : Floor) (slot : Nat) (c : Carrier) (pl : Placement), mayForm ctx f slot c pl = true ↔
    c.state = .active ∧ (ctx.mode = .service ∨ ctx.mode = .commission) ∧ c.passage = none ∧ c.stalled = false ∧
    (∃ e ∈ pl.ahead.drop (pl.granted - 1), f.stands ctx.params.stopGap c.profile.length e.cell = true) ∧
    pl.freeDistance f ctx.params slot < lookahead ctx.params c.profile) ∧
  (∀ (p : Params) (f : Floor) (length : Nat) (l : List Entry),
    let stands (e : Entry) : Prop := f.stands p.stopGap length e.cell = true
    (passageEntries p f length l = none ↔ ∀ e ∈ l.take 8, ¬ stands e) ∧
    (∀ j e, j < 8 → l[j]? = some e → stands e → (∀ x ∈ l.take j, ¬ stands x) →
      passageEntries p f length l = some (l.take (j + 1)))) ∧
  (∀ (ctx : Ctx) (slot : Nat) (ev : FloorEvent) (c : Carrier) (pl : Placement), ev.fl.carrier slot = some c →
    c.place = some pl →
    let made := passageEntries ctx.params ev.fl c.profile.length (pl.ahead.drop (pl.granted - 1))
    let r := form ctx slot ev
    (mayForm ctx ev.fl slot c pl = false → r = ev) ∧
    (mayForm ctx ev.fl slot c pl = true →
      (made = none → r.fl.carrier slot = some { c with routeBroken := true } ∧ r.fl.cells = ev.fl.cells ∧
        r.fl.queueSeq = ev.fl.queueSeq ∧ r.acc = ev.acc) ∧
      (∀ cells, made = some cells → (cells.map (·.cell)).Nodup →
        let full : Prop := ∃ e ∈ cells, ∃ k, ev.fl.cell e.cell = some k ∧ 8 ≤ k.waiting.length
        let q : Passage := ⟨pl.granted, cells, ev.fl.queueSeq, c.profile.priority, c.profile.priority, ctx.now,
          ctx.params.waitLimit * 1000,
          if ctx.params.promoteTime = 0 then none else some (ctx.params.promoteTime * 1000)⟩
        (full → r.fl.carrier slot = some { c with queueRefused := true } ∧ r.fl.cells = ev.fl.cells ∧
          r.fl.queueSeq = ev.fl.queueSeq ∧ r.acc = ev.acc) ∧
        (¬ full → r.fl.carrier slot = some { c with passage := some q, queueRefused := false } ∧
          r.fl.queueSeq = (ev.fl.queueSeq + 1) % 4294967296 ∧
          r.acc = { ev.acc with work := ev.acc.work ++ cells.map (·.cell) } ∧
          ∀ id, r.fl.cell id = (ev.fl.cell id).map fun k =>
            if id ∈ cells.map (·.cell) then { k with waiting := insertWaiting ev.fl slot q k.waiting } else k))) ∧
    ∀ x, x ≠ slot → r.fl.carrier x = ev.fl.carrier x)

/-- The gridlock search finds a ring when the carrier lies on one, and what it finds is one: it begins at the searching
carrier, names no carrier twice, each member has the next one as a blocker through its link, and the last one has the
first (R128, R130). A ring whose members are those of a record changes nothing; a new one is recorded with its links
and time while the table has room, and else sets the overflow flag (R131). At the close of an event in SERVICE or
COMMISSION the carriers waiting in the examined cells are searched for, in rising order; the first ring recorded is
the GRIDLOCK event, and in SERVICE under HALT_ALL it brings hold cause FAULT; where no search finds a ring, nothing
happens (R129, R132, R133). -/
def Obligations.GridlockRingsAreRings : Prop :=
  (∀ (f : Floor) (x : Nat) (ring : List (Nat × GridLink)), searchRing f x = some ring →
    (ring.map Prod.fst).head? = some x ∧ (ring.map Prod.fst).Nodup ∧
    (∀ i a b, ring[i]? = some a → ring[i + 1]? = some b → (b.1, a.2) ∈ blockers f a.1) ∧
    (∀ z, ring.getLast? = some z → (x, z.2) ∈ blockers f z.1)) ∧
  (∀ (f : Floor) (x : Nat), Relation.TransGen (fun a b => ∃ link, (b, link) ∈ blockers f a) x x →
    (searchRing f x).isSome = true) ∧
  (∀ (now : Nat) (ring : List (Nat × GridLink)) (f : Floor) (o : GridOutcome),
    let known : Prop := ∃ r ∈ f.gridlocks, ∀ m, m ∈ r.members ↔ m ∈ ring.map Prod.fst
    (known → recordRing now ring f o = (f, o)) ∧
    (¬ known → (recordRing now ring f o).1 = if f.gridlocks.length < 4 then
        { f with gridlocks := f.gridlocks ++ [⟨ring.map Prod.fst, ring.map Prod.snd, now⟩] }
      else { f with gridOverflow := true })) ∧
  (∀ (f : Floor) (examined : List Nat), (handed f examined).Pairwise (· < ·) ∧
    ∀ x, x ∈ handed f examined ↔ ∃ id ∈ examined, ∃ k, f.cell id = some k ∧ x ∈ k.waiting) ∧
  (∀ e : Event, let slots := handed e.s.floor e.acc.examined
    let now := e.s.clock.siteTime
    (e.s.ctl.mode ≠ .service ∧ e.s.ctl.mode ≠ .commission → closeGridlock e = e) ∧
    ((∀ x ∈ slots, searchRing e.s.floor x = none) → closeGridlock e = e) ∧
    (∀ before x after ring, e.s.ctl.mode = .service ∨ e.s.ctl.mode = .commission → slots = before ++ x :: after →
      (∀ y ∈ before, searchRing e.s.floor y = none) → searchRing e.s.floor x = some ring →
      (∀ r ∈ e.s.floor.gridlocks, ∃ m, ¬ (m ∈ r.members ↔ m ∈ ring.map Prod.fst)) →
      e.s.floor.gridlocks.length < 4 →
      let t := (closeGridlock e).s
      (closeGridlock e).notices.grid = some (ring.map Prod.fst) ∧
      (¬ (e.s.ctl.mode = .service ∧ e.s.params.gridlock = .haltAll) → t.ctl = e.s.ctl ∧
        ∃ more, t.floor.gridlocks = e.s.floor.gridlocks ++ ⟨ring.map Prod.fst, ring.map Prod.snd, now⟩ :: more) ∧
      (e.s.ctl.mode = .service → e.s.params.gridlock = .haltAll → t.ctl =
        if e.s.ctl.holdCount + 1 < e.s.params.holdLimit then heldFrom e.s ⟨false, true, false⟩ e.s.ctl.linkTimer
        else lockedFrom e.s ⟨false, true, false⟩ .count)))

/-! ## Reach and ceiling -/

/-- The grant bound. When the whole route is granted and has a destination, it is the ahead distance of the destination
offset in the last cell, and 0 for a destination behind the head in the head cell; in every other case it is the
far boundary of the last granted entry less stop_gap, and not below 0 (R68). -/
def Obligations.GrantBoundWorked : Prop :=
  ∀ (f : Floor) (p : Params) (pl : Placement),
    let headLeft := f.len pl.head.cell - pl.offset
    let granted := pl.ahead.take (pl.granted - 1)
    (∀ d, pl.ahead.drop (pl.granted - 1) = [] → pl.dest = some d →
      pl.grantBound f p = if granted = [] then (if d < pl.offset then 0 else d - pl.offset)
        else headLeft + (granted.dropLast.map fun e => f.len e.cell).sum + d) ∧
    (pl.ahead.drop (pl.granted - 1) ≠ [] ∨ pl.dest = none →
      let e := headLeft + (granted.map fun e => f.len e.cell).sum
      pl.grantBound f p = if p.stopGap < e then e - p.stopGap else 0)

/-- The free distance is the least of the grant bound and the predecessor limits (R70, R72). A predecessor limit comes of
a LANE that the carrier holds, whose holder before it has its head or a trail cell there and its tail not yet out: the
distance by which the predecessor's head, less its length and follow_gap, lies ahead, and 0 when it does not (R69). A
recomputation gives the reach of an ACTIVE carrier at the free distance, and of another at the nearer of it and the
reach in the record, 0 behind the head (R70, R71, R81) and off the path (entry 36); the point at an ahead distance lies in the nearer cell at a
boundary (R67). The ceiling of an ACTIVE carrier is a multiple of 10, above none of its terms, and the greatest such.
The terms are its max speed, commission_speed in COMMISSION, the speed limits of the cells its body covers, the braking
term of every route entry whose near boundary lies before its reach, the end term, and 4000. Any other carrier's ceiling
is 0, as is every ceiling in LOCKDOWN and HOLD (R74, R75, R77, R84). -/
def Obligations.CeilingIsLeastTerm : Prop :=
  (∀ (f : Floor) (p : Params) (slot : Nat) (pl : Placement),
    let v := pl.freeDistance f p slot
    v ≤ pl.grantBound f p ∧ (∀ x ∈ pl.predLimits f p slot, v ≤ x) ∧
      (v = pl.grantBound f p ∨ v ∈ pl.predLimits f p slot)) ∧
  (∀ (f : Floor) (p : Params) (slot : Nat) (pl : Placement) (x : Nat),
    -- where a lane of the carrier's path lies: what is added to P for A, and taken from it with B
    let lies (id a b : Nat) : Prop := (id = pl.head.cell ∧ a = 0 ∧ b = pl.offset) ∨
      (∃ i e, pl.trail[i]? = some e ∧ id = e.cell ∧ a = 0 ∧
        b = f.len id + (pl.offset + f.lenSum (pl.trail.take i))) ∨
      (∃ i e, pl.grantedAhead[i]? = some e ∧ id = e.cell ∧ b = 0 ∧
        a = f.len pl.head.cell - pl.offset + f.lenSum (pl.ahead.take i))
    let intoLane (y : Placement) (id q : Nat) : Prop := (y.head.cell = id ∧ q = y.offset) ∨
      (y.head.cell ≠ id ∧ ∃ i e, y.trail[i]? = some e ∧ e.cell = id ∧ (∀ e' ∈ y.trail.take i, e'.cell ≠ id) ∧
        q = f.len id + (y.offset + f.lenSum (y.trail.take i)))
    x ∈ pl.predLimits f p slot ↔ ∃ id a b k y yc ypl q, lies id a b ∧ f.cell id = some k ∧ k.kind = .lane ∧
      beforeIn k.holders slot = some y ∧ f.carrier y = some yc ∧ yc.place = some ypl ∧ intoLane ypl id q ∧
      q < k.length + yc.profile.length ∧
      x = if b + yc.profile.length + p.followGap < a + q then a + q - (b + yc.profile.length + p.followGap) else 0) ∧
  (∀ (f : Floor) (p : Params) (mode : Mode) (slot : Nat) (c : Carrier) (pl : Placement), c.place = some pl →
    let free := pl.freeDistance f p slot
    let d := if c.state = .active then free else min free ((pl.aheadOf f pl.reach).getD 0)
    c.recomputed f p mode slot = { c with
      place := some { pl with reach := pl.pointAt f d }
      ceiling := c.ceilingAt f p mode pl d }) ∧
  (∀ (f : Floor) (pl : Placement) (d : Nat),
    (d ≤ pl.headLeft f → pl.pointAt f d = ⟨pl.head.cell, pl.offset + d⟩) ∧
    (∀ i e, pl.ahead[i]? = some e → pl.near f (i + 1) < d → d ≤ pl.near f (i + 1) + f.len e.cell →
      pl.pointAt f d = ⟨e.cell, d - pl.near f (i + 1)⟩)) ∧
  ∀ (f : Floor) (p : Params) (mode : Mode) (c : Carrier) (pl : Placement) (d : Nat),
    let v := c.ceilingAt f p mode pl d
    let terms : List Nat := c.profile.maxSpeed :: 4000 :: endTerm p c.profile.decel d ::
      (if mode = .commission then [p.commissionSpeed] else []) ++ (c.covered f).map f.limit
    (c.state ≠ .active ∨ mode = .lockdown ∨ mode = .hold → v = 0) ∧
    (c.state = .active → mode ≠ .lockdown → mode ≠ .hold →
      v % 10 = 0 ∧ (∀ x ∈ terms, v ≤ x) ∧
      (∀ i e, pl.ahead[i]? = some e → pl.near f (i + 1) < d →
        v ≤ brakingTerm p c.profile.decel (f.limit e.cell) (pl.near f (i + 1))) ∧
      ((∃ x ∈ terms, x < v + 10) ∨ ∃ i e, pl.ahead[i]? = some e ∧ pl.near f (i + 1) < d ∧
        brakingTerm p c.profile.decel (f.limit e.cell) (pl.near f (i + 1)) < v + 10))

/-- The end term of a carrier with free distance `d` is the integer square root of 2 × deceleration × r, where r is
the free distance saturated at 200 000 and less reaction_margin, and it is 0 when the free distance is at most
reaction_margin (R76). -/
def Obligations.EndTermIsRoot : Prop :=
  ∀ (p : Params) (decel d : Nat),
    IsRoot (2 * decel * (min d 200000 - p.reactionMargin)) (endTerm p decel d) ∧
    (d ≤ p.reactionMargin → endTerm p decel d = 0)

/-- The braking term is the integer square root of R75, exactly the limit within reaction_margin; the lookahead and the
stopping distance hold the least whole distance in which the speed is braked away, and are at most 84 000 and
182 000 mm for the values that can be stored (R75, R79, R80). -/
def Obligations.BrakingDistances : Prop :=
  ∀ (p : Params) (q : Profile) (decel limit dist v : Nat), 0 < decel →
    IsRoot (limit * limit + 2 * decel * (min dist 200000 - p.reactionMargin)) (brakingTerm p decel limit dist) ∧
    (dist ≤ p.reactionMargin → brakingTerm p decel limit dist = limit) ∧
    (∃ k, stoppingDistance p decel v = k + p.reactionMargin ∧ v * v ≤ k * (2 * decel) ∧
      ∀ n, v * v ≤ n * (2 * decel) → k ≤ n) ∧
    (lookahead p q = stoppingDistance p q.decel q.maxSpeed + p.stopGap) ∧
    (ParamsInRange p → 100 ≤ decel → v ≤ 6000 → stoppingDistance p decel v ≤ 182000) ∧
    (ParamsInRange p → 100 ≤ q.decel → q.maxSpeed ≤ 4000 → lookahead p q ≤ 84000)

/-! ## Encodings -/

/-- Every request's payload, written from its fields, reads back as those fields, for every value that a field's bytes
can carry: no field, one byte, one cell id, and the payloads of several fields; a payload without fields or of one field
has no other length (R157, R165, R166; the layouts of Define cell and Clear faults are entries 13 and 14, the parameter
identifier's byte entry 12). -/
def Obligations.PayloadsReadBack : Prop :=
  (∀ p : List Byte, parseNone p = some () ↔ p = []) ∧
  (∀ n < 256, parseByte (beBytes 1 n) = some n) ∧ (∀ p n, parseByte p = some n → p = beBytes 1 n ∧ n < 256) ∧
  (∀ n < 65536, parseCellId (beBytes 2 n) = some n) ∧ (∀ p n, parseCellId p = some n → p = beBytes 2 n ∧ n < 65536) ∧
  (∀ f : SetParameterFields, f.id < 256 → f.value < 4294967296 → parseSetParameter f.bytes = some f) ∧
  (∀ f : DefineCellFields, f.id < 65536 → f.kind < 256 → f.length < 65536 → f.links.length = 4 →
    (∀ l : LinkField, some l ∈ f.links → l.cell < 65536 ∧ l.point < 256) → (∀ x ∈ f.sense, x < 256) →
    (∀ x ∈ f.convoy, x < 65536) → (∀ x ∈ f.speedLimit, x < 65536) → (∀ x ∈ f.keepClear, x < 256) →
    (∀ x ∈ f.detector, x < 256) → (∀ x ∈ f.closed, x < 256) → parseDefineCell f.bytes = some f) ∧
  (∀ f : AmendCellFields, f.id < 65536 → (∀ x ∈ f.closed, x < 256) → (∀ x ∈ f.sense, x < 256) →
    (∀ x ∈ f.speedLimit, x < 65536) → (∀ x ∈ f.keepClear, x < 256) → (∀ x ∈ f.convoy, x < 65536) →
    parseAmendCell f.bytes = some f) ∧
  (∀ f : DetectorReportFields, f.id < 65536 → f.level < 256 → parseDetectorReport f.bytes = some f) ∧
  (∀ f : EnrolFields, f.slot < 256 → f.length < 65536 → f.maxSpeed < 65536 → f.decel < 65536 →
    f.priority < 256 → parseEnrol f.bytes = some f) ∧
  (∀ f : PlaceFields, f.slot < 256 → f.cell < 65536 → f.direction < 256 → f.offset < 65536 →
    parsePlace f.bytes = some f) ∧
  (∀ f : SetRouteFields, f.slot < 256 → f.cells ≠ [] → f.cells.length < 256 → (∀ n ∈ f.cells, n < 65536) →
    f.dest < 65536 → parseSetRoute f.bytes = some f) ∧
  (∀ f : ExtendRouteFields, f.slot < 256 → f.cells ≠ [] → f.cells.length ≤ 31 → (∀ n ∈ f.cells, n < 65536) →
    (∀ x ∈ f.dest, x < 65536) → parseExtendRoute f.bytes = some f) ∧
  (∀ f : PositionFields, f.slot < 256 → f.cell < 65536 → f.offset < 65536 → f.speed < 65536 →
    parsePosition f.bytes = some f) ∧
  (∀ n < 256, parseClearTarget (ClearTarget.slot n).bytes = some (.slot n)) ∧
  (∀ n < 65536, parseClearTarget (ClearTarget.cell n).bytes = some (.cell n)) ∧
  parseClearTarget ClearTarget.all.bytes = some .all
end

