-- ==== Sys2Proof/Laws/Due.lean ====
section
/-! SUPPORT. When an event of the part is due: the list of OwnActivity.lean holds exactly the events of Safety's
EventDue. -/

namespace Sys2Proof.Machine

theorem mem_when (b : Bool) (a i : Instr) : i ∈ (if b = true then [a] else []) ↔ b = true ∧ i = a := by
  cases b <;> simp

theorem timerDue_iff (s : State) (t : Option Timer) :
    timerDue t s.clock.siteTime = true ↔ ∃ w, t = some w ∧ Expired s w := by
  cases t <;> simp [timerDue, Timer.due, Expired]

theorem waitDue_iff (s : State) (c : Carrier) : waitDue s.clock.siteTime c = true ↔
    ∃ p, c.passage = some p ∧ p.waitPeriod ≤ elapsed s.clock.siteTime p.queued := by
  cases h : c.passage <;> simp [waitDue, h]

theorem promotionDue_iff (s : State) (c : Carrier) : promotionDue s.clock.siteTime c = true ↔
    ∃ p k, c.passage = some p ∧ p.promotePeriod = some k ∧ k ≤ elapsed s.clock.siteTime p.queued := by
  cases h : c.passage with
  | none => simp [promotionDue, h]
  | some p => cases k : p.promotePeriod <;> simp [promotionDue, h, k]

theorem absenceDue_iff (s : State) (c : Cell) : absenceDue s.clock.siteTime c = true ↔
    ∃ w, c.absence = .running w ∧ Expired s w := by
  cases h : c.absence <;> simp [absenceDue, h, Timer.due, Expired]

theorem linkDue_iff (s : State) : linkDue s = true ↔ ∃ w, s.ctl.linkTimer = .running w ∧ Expired s w := by
  cases h : s.ctl.linkTimer <;> simp [linkDue, h, Timer.due, Expired]

theorem mem_carrierDue (s : State) (e : Nat × Carrier) (i : Instr) : i ∈ carrierDue s.clock.siteTime e ↔
    ((∃ w, e.2.reportTimer = some w ∧ Expired s w) ∧ i = .reportTimerExpiry e.1) ∨
    ((∃ p, e.2.passage = some p ∧ p.waitPeriod ≤ elapsed s.clock.siteTime p.queued) ∧ i = .waitLimit e.1) ∨
    ((∃ p k, e.2.passage = some p ∧ p.promotePeriod = some k ∧ k ≤ elapsed s.clock.siteTime p.queued) ∧
      i = .promotion e.1) := by
  simp only [carrierDue, List.mem_append, mem_when, or_assoc]
  simp only [reportDue, timerDue_iff, waitDue_iff, promotionDue_iff]

theorem mem_cellDue (s : State) (e : Nat × Cell) (i : Instr) : i ∈ cellDue s.clock.siteTime e ↔
    ((∃ w, e.2.filterTimer = some w ∧ Expired s w) ∧ i = .filterTimerExpiry e.1) ∨
    ((∃ w, e.2.absence = .running w ∧ Expired s w) ∧ i = .absenceTimerExpiry e.1) := by
  simp only [cellDue, List.mem_append, mem_when]
  simp only [filterDue, timerDue_iff, absenceDue_iff]

/-- The events found due after STARTUP, in a part that is powered and out of reset. -/
theorem mem_liveDue (s : State) (h1 : s.clock.powered = true) (h2 : s.clock.resetHeld = false) (i : Instr) :
    i ∈ liveDue s ↔ s.ctl.mode ≠ .startup ∧
      (((s.floor.mapState = .checking ∧ ∃ w, s.floor.mapCheck = some w ∧ Expired s w) ∧ i = .mapCheckEnd) ∨
      ((∃ w, s.ctl.linkTimer = .running w ∧ Expired s w) ∧ i = .linkSupervisionExpiry) ∨
      ((s.ctl.mode = .hold ∧ ∃ w, s.ctl.recovery = some w ∧ Expired s w) ∧ i = .recoveryWindowExpiry) ∨
      (∃ e ∈ s.floor.carriers, i ∈ carrierDue s.clock.siteTime e) ∨
      ∃ e ∈ s.floor.cells, i ∈ cellDue s.clock.siteTime e) := by
  have live : s.live = true ↔ s.ctl.mode ≠ .startup := by simp [State.live, State.ready, h1, h2]
  unfold liveDue
  by_cases h : s.ctl.mode = .startup
  · rw [if_neg (by simp [live, h])]; simp [h]
  · rw [if_pos (live.2 h)]
    simp only [List.mem_append, mem_when, List.mem_flatMap, or_assoc]
    simp only [linkDue_iff, checkDue, recoveryDue, Bool.and_eq_true, decide_eq_true_eq, timerDue_iff]
    exact ⟨fun x => ⟨h, x⟩, fun x => x.2⟩

/-- In a part that is powered and out of reset the events found due are those of EventDue. -/
theorem mem_dueEvents (s : State) (h1 : s.clock.powered = true) (h2 : s.clock.resetHeld = false) (i : Instr) :
    i ∈ dueEvents s ↔ EventDue s i := by
  have start : s.startupDue = true ↔ s.ctl.mode = .startup ∧
      (if s.ctl.resetCause = .powerOn then 40 else 10) ≤ s.clock.siteTime := by
    have : startupTime s.ctl.resetCause = if s.ctl.resetCause = .powerOn then 40 else 10 := by
      cases s.ctl.resetCause <;> rfl
    simp [State.startupDue, h1, h2, this]
  have hold : s.ctl.mode = .hold → s.ctl.mode ≠ .startup := fun h => by simp [h]
  simp only [dueEvents, List.mem_append, mem_when, mem_liveDue s h1 h2]
  simp only [start, timerDue_iff, mem_carrierDue, mem_cellDue]
  cases i <;> simp [EventDue]
  all_goals tauto

end Sys2Proof.Machine
end

