-- ==== Sys2Proof/Laws/Table.lean ====
section
/-! SUPPORT. What the operations on tables do to a lookup, and that they keep the canonical form. -/

namespace Sys2Proof.Machine

variable {α : Type}

theorem tget_tset (t : Table α) (k j : Nat) (v : α) : tget (tset t k v) j = if j = k then some v else tget t j := by
  induction t with
  | nil => simp only [tset, tget, eq_comm]
  | cons e r ih =>
    obtain ⟨i, w⟩ := e
    rw [tset]
    split_ifs with h1 h2 h3 h4 h5
    · simp [tget, h2]
    · have : ¬ k = j := fun x => h2 x.symm
      simp [tget, this]
    · simp [tget, h4]
    · have hk : ¬ k = j := fun x => h4 x.symm
      have hi : ¬ i = j := fun x => h4 (x.symm.trans h3.symm)
      simp [tget, hk, hi]
    · have hi : ¬ i = j := fun x => h3 (x.trans h5).symm
      rw [tget, if_neg hi, ih]
      simp [h5]
    · by_cases hi : i = j <;> simp [tget, hi, ih, h5]

theorem tget_tmod (t : Table α) (k j : Nat) (f : α → α) :
    tget (tmod t k f) j = if j = k then (tget t j).map f else tget t j := by
  induction t with
  | nil => simp [tmod, tget]
  | cons e r ih =>
    obtain ⟨i, w⟩ := e
    have hc : tmod ((i, w) :: r) k f = (if i = k then (i, f w) else (i, w)) :: tmod r k f := rfl
    rw [hc]
    by_cases h1 : i = j
    · subst h1; by_cases h2 : i = k <;> simp [tget, h2]
    · have h3 : ∀ w', tget ((i, w') :: tmod r k f) j = tget (tmod r k f) j := fun w' => by simp [tget, h1]
      have h4 : tget ((i, w) :: r) j = tget r j := by simp [tget, h1]
      by_cases h2 : i = k
      · rw [if_pos h2, h3, h4, ih]
      · rw [if_neg h2, h3, h4, ih]

theorem tget_tmap (t : Table α) (j : Nat) (f : Nat → α → α) : tget (tmap t f) j = (tget t j).map (f j) := by
  induction t with
  | nil => simp [tmap, tget]
  | cons e r ih =>
    obtain ⟨i, w⟩ := e
    by_cases h : i = j
    · subst h; simp [tmap, tget]
    · simpa [tmap, tget, h] using ih

theorem tget_tdel (t : Table α) (k j : Nat) : tget (tdel t k) j = if j = k then none else tget t j := by
  induction t with
  | nil => simp [tdel, tget]
  | cons e r ih =>
    obtain ⟨i, w⟩ := e
    by_cases h1 : i = k
    · subst h1
      by_cases h2 : j = i
      · simpa [tdel, tget, h2] using ih
      · have : ¬ i = j := fun x => h2 x.symm
        simpa [tdel, tget, h2, this] using ih
    · have hk : ((i, w) :: r).filter (fun e => e.1 != k) = (i, w) :: r.filter (fun e => e.1 != k) := by
        simp [h1]
      simp only [tdel, hk] at ih ⊢
      by_cases h2 : i = j
      · subst h2; simp [tget, h1]
      · simpa [tget, h2] using ih

/-- The keys after a change of one entry. -/
@[simp] theorem tmod_keys (t : Table α) (k : Nat) (f : α → α) : (tmod t k f).map Prod.fst = t.map Prod.fst := by
  simp only [tmod, List.map_map]
  congr 1; funext e; dsimp; split <;> rfl

/-- The keys after a change of every entry. -/
@[simp] theorem tmap_keys (t : Table α) (f : Nat → α → α) : (tmap t f).map Prod.fst = t.map Prod.fst := by
  simp [tmap, Function.comp_def]

/-- The canonical form, as a property of the keys. -/
theorem tableWf_iff (b : Nat) (t : Table α) :
    tableWf b t = true ↔ (t.map Prod.fst).Pairwise (· < ·) ∧ ∀ k ∈ t.map Prod.fst, k < b := by
  simp [tableWf]

theorem tableWf_tmod (b : Nat) (t : Table α) (k : Nat) (f : α → α) (h : tableWf b t = true) :
    tableWf b (tmod t k f) = true := by
  rw [tableWf_iff] at *; simpa using h

theorem tableWf_tmap (b : Nat) (t : Table α) (f : Nat → α → α) (h : tableWf b t = true) :
    tableWf b (tmap t f) = true := by
  rw [tableWf_iff] at *; simpa using h

theorem tableWf_tdel (b : Nat) (t : Table α) (k : Nat) (h : tableWf b t = true) : tableWf b (tdel t k) = true := by
  rw [tableWf_iff] at *
  have hs : List.Sublist ((tdel t k).map Prod.fst) (t.map Prod.fst) := List.filter_sublist.map _
  exact ⟨h.1.sublist hs, fun x hx => h.2 x (hs.subset hx)⟩

theorem mem_tset_keys (t : Table α) (k j : Nat) (v : α) :
    j ∈ (tset t k v).map Prod.fst ↔ j = k ∨ j ∈ t.map Prod.fst := by
  induction t with
  | nil => simp [tset]
  | cons e r ih =>
    obtain ⟨i, w⟩ := e
    by_cases h1 : k < i
    · simp [tset, h1]
    · by_cases h2 : k = i
      · subst h2; simp [tset]
      · simp only [tset, h1, h2, if_false, List.map_cons, List.mem_cons, ih]
        tauto

theorem tableWf_tset (b : Nat) (t : Table α) (k : Nat) (v : α) (hk : k < b) (h : tableWf b t = true) :
    tableWf b (tset t k v) = true := by
  rw [tableWf_iff] at *
  refine ⟨?_, fun x hx => ?_⟩
  · have h1 := h.1
    clear h
    induction t with
    | nil => simp [tset]
    | cons e r ih =>
      obtain ⟨i, w⟩ := e
      rw [List.map_cons, List.pairwise_cons] at h1
      by_cases h2 : k < i
      · simp only [tset, h2, if_true, List.map_cons, List.pairwise_cons, List.mem_cons]
        refine ⟨?_, h1⟩
        rintro x (rfl | hx)
        · exact h2
        · exact h2.trans (h1.1 x hx)
      · by_cases h3 : k = i
        · subst h3; simpa [tset] using h1
        · simp only [tset, h2, h3, if_false, List.map_cons, List.pairwise_cons]
          refine ⟨fun x hx => ?_, ih h1.2⟩
          rcases (mem_tset_keys r k x v).1 hx with rfl | hx
          · omega
          · exact h1.1 x hx
  · rcases (mem_tset_keys t k x v).1 hx with rfl | hx
    · exact hk
    · exact h.2 x hx

end Sys2Proof.Machine
end

