-- ==== Sys2Proof/Laws/State.lean ====
section
/-! SUPPORT. One lemma per field per update of the records that the operations write, each true by its definition;
and the lookups after a change of one cell or one carrier. -/

namespace Sys2Proof.Machine

/-! ## Floor -/

@[simp] theorem Floor.modCell_mapState (f : Floor) (id : Nat) (g : Cell → Cell) : (f.modCell id g).mapState = f.mapState := rfl
@[simp] theorem Floor.modCell_firstError (f : Floor) (id : Nat) (g : Cell → Cell) : (f.modCell id g).firstError = f.firstError := rfl
@[simp] theorem Floor.modCell_layoutLock (f : Floor) (id : Nat) (g : Cell → Cell) : (f.modCell id g).layoutLock = f.layoutLock := rfl
@[simp] theorem Floor.modCell_mapCheck (f : Floor) (id : Nat) (g : Cell → Cell) : (f.modCell id g).mapCheck = f.mapCheck := rfl
@[simp] theorem Floor.modCell_carriers (f : Floor) (id : Nat) (g : Cell → Cell) : (f.modCell id g).carriers = f.carriers := rfl
@[simp] theorem Floor.modCell_queueSeq (f : Floor) (id : Nat) (g : Cell → Cell) : (f.modCell id g).queueSeq = f.queueSeq := rfl
@[simp] theorem Floor.modCell_gridlocks (f : Floor) (id : Nat) (g : Cell → Cell) : (f.modCell id g).gridlocks = f.gridlocks := rfl
@[simp] theorem Floor.modCell_gridOverflow (f : Floor) (id : Nat) (g : Cell → Cell) : (f.modCell id g).gridOverflow = f.gridOverflow := rfl
@[simp] theorem Floor.modCarrier_mapState (f : Floor) (slot : Nat) (g : Carrier → Carrier) :
    (f.modCarrier slot g).mapState = f.mapState := rfl
@[simp] theorem Floor.modCarrier_firstError (f : Floor) (slot : Nat) (g : Carrier → Carrier) :
    (f.modCarrier slot g).firstError = f.firstError := rfl
@[simp] theorem Floor.modCarrier_layoutLock (f : Floor) (slot : Nat) (g : Carrier → Carrier) :
    (f.modCarrier slot g).layoutLock = f.layoutLock := rfl
@[simp] theorem Floor.modCarrier_mapCheck (f : Floor) (slot : Nat) (g : Carrier → Carrier) :
    (f.modCarrier slot g).mapCheck = f.mapCheck := rfl
@[simp] theorem Floor.modCarrier_cells (f : Floor) (slot : Nat) (g : Carrier → Carrier) :
    (f.modCarrier slot g).cells = f.cells := rfl
@[simp] theorem Floor.modCarrier_queueSeq (f : Floor) (slot : Nat) (g : Carrier → Carrier) :
    (f.modCarrier slot g).queueSeq = f.queueSeq := rfl
@[simp] theorem Floor.modCarrier_gridlocks (f : Floor) (slot : Nat) (g : Carrier → Carrier) :
    (f.modCarrier slot g).gridlocks = f.gridlocks := rfl
@[simp] theorem Floor.modCarrier_gridOverflow (f : Floor) (slot : Nat) (g : Carrier → Carrier) :
    (f.modCarrier slot g).gridOverflow = f.gridOverflow := rfl

/-- The record of a cell after a change of one cell. -/
@[simp] theorem Floor.cell_modCell (f : Floor) (id n : Nat) (g : Cell → Cell) :
    (f.modCell id g).cell n = if n = id then (f.cell n).map g else f.cell n := tget_tmod f.cells id n g

/-- The record of a carrier after a change of one carrier. -/
@[simp] theorem Floor.carrier_modCarrier (f : Floor) (slot n : Nat) (g : Carrier → Carrier) :
    (f.modCarrier slot g).carrier n = if n = slot then (f.carrier n).map g else f.carrier n :=
  tget_tmod f.carriers slot n g

@[simp] theorem Floor.carrier_modCell (f : Floor) (id n : Nat) (g : Cell → Cell) :
    (f.modCell id g).carrier n = f.carrier n := rfl

@[simp] theorem Floor.cell_modCarrier (f : Floor) (slot n : Nat) (g : Carrier → Carrier) :
    (f.modCarrier slot g).cell n = f.cell n := rfl

/-! ## Carrier -/

@[simp] theorem Carrier.modPlace_state (c : Carrier) (g : Placement → Placement) : (c.modPlace g).state = c.state := rfl
@[simp] theorem Carrier.modPlace_profile (c : Carrier) (g : Placement → Placement) : (c.modPlace g).profile = c.profile := rfl
@[simp] theorem Carrier.modPlace_ceiling (c : Carrier) (g : Placement → Placement) : (c.modPlace g).ceiling = c.ceiling := rfl
@[simp] theorem Carrier.modPlace_delivered (c : Carrier) (g : Placement → Placement) : (c.modPlace g).delivered = c.delivered := rfl
@[simp] theorem Carrier.modPlace_stalled (c : Carrier) (g : Placement → Placement) : (c.modPlace g).stalled = c.stalled := rfl
@[simp] theorem Carrier.modPlace_routeBroken (c : Carrier) (g : Placement → Placement) : (c.modPlace g).routeBroken = c.routeBroken := rfl
@[simp] theorem Carrier.modPlace_queueRefused (c : Carrier) (g : Placement → Placement) : (c.modPlace g).queueRefused = c.queueRefused := rfl
@[simp] theorem Carrier.modPlace_haltedCause (c : Carrier) (g : Placement → Placement) : (c.modPlace g).haltedCause = c.haltedCause := rfl
@[simp] theorem Carrier.modPlace_reportTimer (c : Carrier) (g : Placement → Placement) : (c.modPlace g).reportTimer = c.reportTimer := rfl
@[simp] theorem Carrier.modPlace_passage (c : Carrier) (g : Placement → Placement) : (c.modPlace g).passage = c.passage := rfl
@[simp] theorem Carrier.modPlace_faults (c : Carrier) (g : Placement → Placement) : (c.modPlace g).faults = c.faults := rfl
@[simp] theorem Carrier.modPlace_place (c : Carrier) (g : Placement → Placement) :
    (c.modPlace g).place = c.place.map g := rfl

/-! ## What an event of the floor gathers -/

@[simp] theorem FloorEvent.onFloor_fl (ev : FloorEvent) (g : Floor → Floor) : (ev.onFloor g).fl = g ev.fl := rfl
@[simp] theorem FloorEvent.onFloor_acc (ev : FloorEvent) (g : Floor → Floor) : (ev.onFloor g).acc = ev.acc := rfl
@[simp] theorem FloorEvent.toExamine_fl (ev : FloorEvent) (l : List Nat) : (ev.toExamine l).fl = ev.fl := rfl
@[simp] theorem FloorEvent.toRecompute_fl (ev : FloorEvent) (l : List Nat) : (ev.toRecompute l).fl = ev.fl := rfl
@[simp] theorem FloorEvent.bar_fl (ev : FloorEvent) (l : List Nat) : (ev.bar l).fl = ev.fl := rfl
@[simp] theorem FloorEvent.bar_work (ev : FloorEvent) (l : List Nat) : (ev.bar l).acc.work = ev.acc.work := rfl
@[simp] theorem FloorEvent.bar_examined (ev : FloorEvent) (l : List Nat) : (ev.bar l).acc.examined = ev.acc.examined := rfl
@[simp] theorem FloorEvent.bar_granted (ev : FloorEvent) (l : List Nat) : (ev.bar l).acc.granted = ev.acc.granted := rfl
@[simp] theorem FloorEvent.bar_dirty (ev : FloorEvent) (l : List Nat) : (ev.bar l).acc.dirty = ev.acc.dirty := rfl
@[simp] theorem FloorEvent.bar_cuts (ev : FloorEvent) (l : List Nat) : (ev.bar l).acc.cuts = ev.acc.cuts := rfl
@[simp] theorem FloorEvent.bar_forbidden (ev : FloorEvent) (l : List Nat) : (ev.bar l).acc.forbidden = ev.acc.forbidden := rfl
@[simp] theorem FloorEvent.bar_barred (ev : FloorEvent) (l : List Nat) : (ev.bar l).acc.barred = l := rfl
@[simp] theorem FloorEvent.toExamine_barred (ev : FloorEvent) (l : List Nat) : (ev.toExamine l).acc.barred = ev.acc.barred := rfl
@[simp] theorem FloorEvent.toRecompute_barred (ev : FloorEvent) (l : List Nat) : (ev.toRecompute l).acc.barred = ev.acc.barred := rfl
@[simp] theorem FloorEvent.toExamine_examined (ev : FloorEvent) (l : List Nat) : (ev.toExamine l).acc.examined = ev.acc.examined := rfl
@[simp] theorem FloorEvent.toExamine_granted (ev : FloorEvent) (l : List Nat) : (ev.toExamine l).acc.granted = ev.acc.granted := rfl
@[simp] theorem FloorEvent.toExamine_dirty (ev : FloorEvent) (l : List Nat) : (ev.toExamine l).acc.dirty = ev.acc.dirty := rfl
@[simp] theorem FloorEvent.toExamine_cuts (ev : FloorEvent) (l : List Nat) : (ev.toExamine l).acc.cuts = ev.acc.cuts := rfl
@[simp] theorem FloorEvent.toExamine_forbidden (ev : FloorEvent) (l : List Nat) : (ev.toExamine l).acc.forbidden = ev.acc.forbidden := rfl
@[simp] theorem FloorEvent.toRecompute_work (ev : FloorEvent) (l : List Nat) :
    (ev.toRecompute l).acc.work = ev.acc.work := rfl
@[simp] theorem FloorEvent.toRecompute_examined (ev : FloorEvent) (l : List Nat) :
    (ev.toRecompute l).acc.examined = ev.acc.examined := rfl
@[simp] theorem FloorEvent.toRecompute_granted (ev : FloorEvent) (l : List Nat) :
    (ev.toRecompute l).acc.granted = ev.acc.granted := rfl
@[simp] theorem FloorEvent.toRecompute_cuts (ev : FloorEvent) (l : List Nat) :
    (ev.toRecompute l).acc.cuts = ev.acc.cuts := rfl
@[simp] theorem FloorEvent.toRecompute_forbidden (ev : FloorEvent) (l : List Nat) :
    (ev.toRecompute l).acc.forbidden = ev.acc.forbidden := rfl
@[simp] theorem recomputeAll_fl (ev : FloorEvent) : (recomputeAll ev).fl = ev.fl := rfl

/-! ## Events of the part -/

@[simp] theorem Event.start_s (s : State) : (Event.start s).s = s := rfl
@[simp] theorem Event.start_acc (s : State) : (Event.start s).acc = noneGathered := rfl
@[simp] theorem Event.start_notices (s : State) : (Event.start s).notices = ⟨none, false, none, none⟩ := rfl
@[simp] theorem Event.onFloor_pending (e : Event) (g : Ctx → FloorEvent → FloorEvent) : (e.onFloor g).s.pending = e.s.pending := rfl
@[simp] theorem Event.onFloor_free (e : Event) (g : Ctx → FloorEvent → FloorEvent) : (e.onFloor g).s.free = e.s.free := rfl
@[simp] theorem Event.onFloor_clock (e : Event) (g : Ctx → FloorEvent → FloorEvent) : (e.onFloor g).s.clock = e.s.clock := rfl
@[simp] theorem Event.onFloor_ctl (e : Event) (g : Ctx → FloorEvent → FloorEvent) : (e.onFloor g).s.ctl = e.s.ctl := rfl
@[simp] theorem Event.onFloor_params (e : Event) (g : Ctx → FloorEvent → FloorEvent) : (e.onFloor g).s.params = e.s.params := rfl
@[simp] theorem Event.onFloor_link (e : Event) (g : Ctx → FloorEvent → FloorEvent) : (e.onFloor g).s.link = e.s.link := rfl
@[simp] theorem Event.onFloor_floor (e : Event) (g : Ctx → FloorEvent → FloorEvent) :
    (e.onFloor g).s.floor = (g e.s.ctx ⟨e.s.floor, e.acc⟩).fl := rfl
@[simp] theorem Event.onFloor_acc (e : Event) (g : Ctx → FloorEvent → FloorEvent) :
    (e.onFloor g).acc = (g e.s.ctx ⟨e.s.floor, e.acc⟩).acc := rfl
@[simp] theorem Event.onFloor_notices (e : Event) (g : Ctx → FloorEvent → FloorEvent) :
    (e.onFloor g).notices = e.notices := rfl
@[simp] theorem Event.onCtl_pending (e : Event) (g : ModeController → ModeController) : (e.onCtl g).s.pending = e.s.pending := rfl
@[simp] theorem Event.onCtl_free (e : Event) (g : ModeController → ModeController) : (e.onCtl g).s.free = e.s.free := rfl
@[simp] theorem Event.onCtl_clock (e : Event) (g : ModeController → ModeController) : (e.onCtl g).s.clock = e.s.clock := rfl
@[simp] theorem Event.onCtl_floor (e : Event) (g : ModeController → ModeController) : (e.onCtl g).s.floor = e.s.floor := rfl
@[simp] theorem Event.onCtl_params (e : Event) (g : ModeController → ModeController) : (e.onCtl g).s.params = e.s.params := rfl
@[simp] theorem Event.onCtl_link (e : Event) (g : ModeController → ModeController) : (e.onCtl g).s.link = e.s.link := rfl
@[simp] theorem Event.onCtl_ctl (e : Event) (g : ModeController → ModeController) : (e.onCtl g).s.ctl = g e.s.ctl := rfl
@[simp] theorem Event.onCtl_acc (e : Event) (g : ModeController → ModeController) : (e.onCtl g).acc = e.acc := rfl
@[simp] theorem Event.onCtl_notices (e : Event) (g : ModeController → ModeController) :
    (e.onCtl g).notices = e.notices := rfl
@[simp] theorem Event.modeEvent_s (e : Event) : (e.modeEvent).s = e.s := rfl
@[simp] theorem Event.modeEvent_acc (e : Event) : (e.modeEvent).acc = e.acc := rfl
@[simp] theorem Event.routeEvent_s (e : Event) (r : RouteSource) : (e.routeEvent r).s = e.s := rfl
@[simp] theorem Event.routeEvent_acc (e : Event) (r : RouteSource) : (e.routeEvent r).acc = e.acc := rfl
@[simp] theorem State.ctx_now (s : State) : s.ctx.now = s.clock.siteTime := rfl
@[simp] theorem State.ctx_params (s : State) : s.ctx.params = s.params := rfl
@[simp] theorem State.ctx_mode (s : State) : s.ctx.mode = s.ctl.mode := rfl

/-! ## The link -/

@[simp] theorem sendNotice_pending (s : State) (k : NoticeKind) : (sendNotice s k).pending = s.pending := rfl
@[simp] theorem sendNotice_free (s : State) (k : NoticeKind) : (sendNotice s k).free = s.free := rfl
@[simp] theorem sendNotice_clock (s : State) (k : NoticeKind) : (sendNotice s k).clock = s.clock := rfl
@[simp] theorem sendNotice_floor (s : State) (k : NoticeKind) : (sendNotice s k).floor = s.floor := rfl
@[simp] theorem sendNotice_ctl (s : State) (k : NoticeKind) : (sendNotice s k).ctl = s.ctl := rfl
@[simp] theorem sendNotice_params (s : State) (k : NoticeKind) : (sendNotice s k).params = s.params := rfl
@[simp] theorem sendReply_pending (tag kind : Byte) (c : Code) (l : List Item) (x : Bool) (s : State) :
    (sendReply tag kind c l x s).pending = s.pending := rfl
@[simp] theorem sendReply_free (tag kind : Byte) (c : Code) (l : List Item) (x : Bool) (s : State) :
    (sendReply tag kind c l x s).free = s.free := rfl
@[simp] theorem sendReply_clock (tag kind : Byte) (c : Code) (l : List Item) (x : Bool) (s : State) :
    (sendReply tag kind c l x s).clock = s.clock := rfl
@[simp] theorem sendReply_floor (tag kind : Byte) (c : Code) (l : List Item) (x : Bool) (s : State) :
    (sendReply tag kind c l x s).floor = s.floor := rfl
@[simp] theorem sendReply_ctl (tag kind : Byte) (c : Code) (l : List Item) (x : Bool) (s : State) :
    (sendReply tag kind c l x s).ctl = s.ctl := rfl
@[simp] theorem sendReply_params (tag kind : Byte) (c : Code) (l : List Item) (x : Bool) (s : State) :
    (sendReply tag kind c l x s).params = s.params := rfl
@[simp] theorem State.onClasses_pending (s : State) (g : NoticeClasses → NoticeClasses) : (s.onClasses g).pending = s.pending := rfl
@[simp] theorem State.onClasses_free (s : State) (g : NoticeClasses → NoticeClasses) : (s.onClasses g).free = s.free := rfl
@[simp] theorem State.onClasses_clock (s : State) (g : NoticeClasses → NoticeClasses) : (s.onClasses g).clock = s.clock := rfl
@[simp] theorem State.onClasses_floor (s : State) (g : NoticeClasses → NoticeClasses) : (s.onClasses g).floor = s.floor := rfl
@[simp] theorem State.onClasses_ctl (s : State) (g : NoticeClasses → NoticeClasses) : (s.onClasses g).ctl = s.ctl := rfl
@[simp] theorem State.onClasses_params (s : State) (g : NoticeClasses → NoticeClasses) : (s.onClasses g).params = s.params := rfl

end Sys2Proof.Machine
end

