-- ==== Sys2Proof/Laws/Floor.lean ====
section
/-! SUPPORT. What the shared operations of the floor can do: each keeps the map state, the definitions of the cells
and what is a carrier's own (`FloorKept`). A statement about a frame cites these and unfolds no operation. -/

namespace Sys2Proof.Machine

/-- The map and its definitions are as they were, and every carrier keeps what is its own. -/
structure FloorKept (f g : Floor) : Prop where
  mapState : g.mapState = f.mapState
  firstError : g.firstError = f.firstError
  layoutLock : g.layoutLock = f.layoutLock
  mapCheck : g.mapCheck = f.mapCheck
  definitions : DefinitionsKept f g
  own : ∀ x, (g.carrier x).map Carrier.own = (f.carrier x).map Carrier.own

namespace FloorKept

theorem refl (f : Floor) : FloorKept f f := ⟨rfl, rfl, rfl, rfl, fun _ => rfl, fun _ => rfl⟩

theorem trans {a b c : Floor} (h : FloorKept a b) (k : FloorKept b c) : FloorKept a c :=
  ⟨k.1.trans h.1, k.2.trans h.2, k.3.trans h.3, k.4.trans h.4,
    fun n => (k.5 n).trans (h.5 n), fun n => (k.6 n).trans (h.6 n)⟩

theorem others {f g : Floor} (h : FloorKept f g) (l : List Nat) : OthersKept l f g := fun x _ => h.own x

end FloorKept

/-! ## Changes of one record, and of every record -/

theorem kept_modCell (f : Floor) (id : Nat) (g : Cell → Cell) (hg : ∀ c, (g c).definition = c.definition) :
    FloorKept f (f.modCell id g) := by
  refine ⟨rfl, rfl, rfl, rfl, fun n => ?_, fun _ => rfl⟩
  rw [Floor.cell_modCell]
  split
  · cases f.cell n <;> simp [hg]
  · rfl

theorem kept_modCarrier (f : Floor) (slot : Nat) (g : Carrier → Carrier) (hg : ∀ c, (g c).own = c.own) :
    FloorKept f (f.modCarrier slot g) := by
  refine ⟨rfl, rfl, rfl, rfl, fun _ => rfl, fun n => ?_⟩
  rw [Floor.carrier_modCarrier]
  split
  · cases f.carrier n <;> simp [hg]
  · rfl

theorem own_modPlace (c : Carrier) (g : Placement → Placement)
    (hg : ∀ p, ((g p).head, (g p).offset, (g p).last, (g p).trail) = (p.head, p.offset, p.last, p.trail)) :
    (c.modPlace g).own = c.own := by
  unfold Carrier.own
  cases h : c.place <;> simp_all [Carrier.modPlace]

theorem kept_cells (f : Floor) (g : Nat → Cell → Cell) (hg : ∀ n c, (g n c).definition = c.definition) :
    FloorKept f { f with cells := tmap f.cells g } := by
  refine ⟨rfl, rfl, rfl, rfl, fun n => ?_, fun _ => rfl⟩
  show (tget (tmap f.cells g) n).map _ = (tget f.cells n).map _
  rw [tget_tmap]; cases tget f.cells n <;> simp [hg]

theorem kept_carriers (f : Floor) (g : Nat → Carrier → Carrier) (hg : ∀ n c, (g n c).own = c.own) :
    FloorKept f { f with carriers := tmap f.carriers g } := by
  refine ⟨rfl, rfl, rfl, rfl, fun _ => rfl, fun n => ?_⟩
  show (tget (tmap f.carriers g) n).map _ = (tget f.carriers n).map _
  rw [tget_tmap]; cases tget f.carriers n <;> simp [hg]

/-- A fold of operations that keep the floor keeps it. -/
theorem kept_foldl {α : Type} (step : FloorEvent → α → FloorEvent) (h : ∀ e x, FloorKept e.fl (step e x).fl)
    (l : List α) (e : FloorEvent) : FloorKept e.fl (l.foldl step e).fl := by
  induction l generalizing e with
  | nil => exact .refl _
  | cons x r ih => exact (h e x).trans (ih _)

theorem kept_foldl_floor {α : Type} (step : Floor → α → Floor) (h : ∀ f x, FloorKept f (step f x))
    (l : List α) (f : Floor) : FloorKept f (l.foldl step f) := by
  induction l generalizing f with
  | nil => exact .refl _
  | cons x r ih => exact (h f x).trans (ih _)

/-! ## Withdrawals, cuts and amendments -/

theorem kept_dropPassage (f : Floor) (slot : Nat) : FloorKept f (dropPassage f slot) :=
  (kept_cells f (fun _ c => { c with waiting := c.waiting.erase slot }) fun _ _ => rfl).trans
    ((kept_modCarrier _ slot (fun c => { c with passage := none }) fun _ => rfl).trans
      ⟨rfl, rfl, rfl, rfl, fun _ => rfl, fun _ => rfl⟩)

theorem kept_withdraw (slot : Nat) (ev : FloorEvent) : FloorKept ev.fl (withdraw slot ev).fl := by
  unfold withdraw; split
  · exact .refl _
  · exact kept_dropPassage _ _

theorem kept_withdrawAll (ev : FloorEvent) : FloorKept ev.fl (withdrawAll ev).fl :=
  kept_foldl _ (fun e x => kept_withdraw x e) _ _

theorem own_cutRecord (f : Floor) (p : Params) (j : Nat) (c : Carrier) : (cutRecord f p j c).own = c.own :=
  own_modPlace c _ fun _ => rfl

theorem kept_cutRoute (ctx : Ctx) (slot j : Nat) (ev : FloorEvent) : FloorKept ev.fl (cutRoute ctx slot j ev).fl :=
  kept_modCarrier _ _ _ fun c => own_cutRecord _ _ _ c

theorem kept_withdrawForbidden (ctx : Ctx) (id : Nat) (old new : Cell) (ev : FloorEvent) :
    FloorKept ev.fl (withdrawForbidden ctx id old new ev).fl := by
  refine kept_foldl _ (fun e x => ?_) _ _
  dsimp only
  split
  · exact .refl _
  · split
    · exact kept_withdraw _ _
    · exact .refl _

theorem kept_cutForbidden (ctx : Ctx) (id : Nat) (old new : Cell) (ev : FloorEvent) :
    FloorKept ev.fl (cutForbidden ctx id old new ev).fl := by
  refine kept_foldl _ (fun e x => ?_) _ _
  split
  · exact .refl _
  · exact kept_cutRoute _ _ _ _

theorem kept_applyAmendment (ctx : Ctx) (id : Nat) (a : Amendment) (ev : FloorEvent) :
    FloorKept ev.fl (applyAmendment ctx id a ev).fl := by
  unfold applyAmendment
  split
  · exact .refl _
  · exact ((kept_modCell ev.fl id (amended a) fun _ => rfl).trans
      (kept_withdrawForbidden ctx id _ _ (ev.onFloor fun f => f.modCell id (amended a)))).trans
      (kept_cutForbidden ctx id _ _ _)

/-! ## Detectors and coverage -/

theorem kept_confirm (id : Nat) (ev : FloorEvent) : FloorKept ev.fl (confirm id ev).fl := by
  unfold confirm
  split
  · exact .refl _
  · split
    · exact .refl _
    · exact kept_modCell _ _ _ fun _ => rfl

theorem definition_coverStart (ctx : Ctx) (c : Cell) : (coverStart ctx c).definition = c.definition := by
  unfold coverStart
  split
  · rfl
  · split
    · split <;> rfl
    · rfl
    · rfl

theorem definition_coverStop (b : Bool) (c : Cell) : (coverStop b c).definition = c.definition := by
  unfold coverStop; split <;> rfl

theorem kept_coverChange (ctx : Ctx) (before after : List Nat) (f : Floor) :
    FloorKept f (coverChange ctx before after f) :=
  (kept_foldl_floor _ (fun g x => kept_modCell g x _ fun c => definition_coverStop _ c) _ _).trans
    (kept_foldl_floor _ (fun g x => kept_modCell g x _ fun c => definition_coverStart _ c) _ _)

/-! ## Releases -/

theorem kept_vacated (ctx : Ctx) (id : Nat) (ev : FloorEvent) : FloorKept ev.fl (vacated ctx id ev).fl := by
  unfold vacated
  split
  · exact .refl _
  · next c _ =>
    split
    · exact .refl _
    · have h : FloorKept ev.fl (match c.amendment with
          | some a => applyAmendment ctx id a ev
          | none => ev).fl := by
        split
        · exact kept_applyAmendment _ _ _ _
        · exact .refl _
      dsimp only
      split
      · exact h.trans (kept_modCell _ id swept fun _ => rfl)
      · exact h

theorem kept_release (ctx : Ctx) (slot id : Nat) (ev : FloorEvent) : FloorKept ev.fl (release ctx slot id ev).fl := by
  unfold release
  split
  · exact .refl _
  · split
    · exact .refl _
    · next c _ _ =>
      exact (kept_modCell ev.fl id (leaveCell slot) fun _ => rfl).trans (kept_vacated ctx id
        ((ev.onFloor fun f => f.modCell id (leaveCell slot)).toRecompute (afterIn c.holders slot).toList))

theorem kept_releaseAll (ctx : Ctx) (slot : Nat) (cells : List Nat) (ev : FloorEvent) :
    FloorKept ev.fl (releaseAll ctx slot cells ev).fl :=
  kept_foldl _ (fun e x => kept_release ctx slot x e) _ _

/-! ## Grants and formations -/

theorem kept_grantFloor (slot : Nat) (p : Passage) (f : Floor) : FloorKept f (grantFloor slot p f) :=
  ((kept_dropPassage f slot).trans
    (kept_foldl_floor (fun g (e : Entry) => g.modCell e.cell (joinCell slot e.entry))
      (fun g e => kept_modCell g e.cell _ fun _ => rfl) p.cells _)).trans
    (kept_modCarrier _ slot _ fun c => own_modPlace c _ fun _ => rfl)

theorem kept_examineCell (id : Nat) (ev : FloorEvent) : FloorKept ev.fl (examineCell id ev).fl := by
  unfold examineCell
  dsimp only
  split
  · exact .refl _
  · split
    · exact .refl _
    · split
      · exact kept_grantFloor _ _ _
      · exact .refl _

theorem kept_examineUpTo (n : Nat) (ev : FloorEvent) : FloorKept ev.fl (examineUpTo n ev).fl := by
  induction n generalizing ev with
  | zero => exact .refl _
  | succ n ih =>
    unfold examineUpTo
    split
    · exact .refl _
    · next id rest _ =>
      exact (kept_examineCell id { ev with acc := { ev.acc with work := rest } }).trans (ih _)

theorem kept_examine (ev : FloorEvent) : FloorKept ev.fl (examine ev).fl := kept_examineUpTo _ _

theorem kept_insertEverywhere (slot : Nat) (q : Passage) (f : Floor) : FloorKept f (insertEverywhere slot q f) :=
  kept_foldl_floor (fun g (e : Entry) => g.modCell e.cell fun c =>
    { c with waiting := insertWaiting f slot q c.waiting }) (fun g e => kept_modCell g e.cell _ fun _ => rfl) q.cells f

theorem kept_queuePassage (ctx : Ctx) (slot : Nat) (c : Carrier) (granted : Nat) (cells : List Entry)
    (ev : FloorEvent) : FloorKept ev.fl (queuePassage ctx slot c granted cells ev).fl := by
  unfold queuePassage
  split
  · exact kept_modCarrier _ _ _ fun _ => rfl
  · exact ((kept_insertEverywhere slot _ ev.fl).trans
      (kept_modCarrier _ slot (fun c => { c with passage := some _, queueRefused := false }) fun _ => rfl)).trans
      ⟨rfl, rfl, rfl, rfl, fun _ => rfl, fun _ => rfl⟩

theorem kept_form (ctx : Ctx) (slot : Nat) (ev : FloorEvent) : FloorKept ev.fl (form ctx slot ev).fl := by
  unfold form
  split
  · exact .refl _
  · split
    · exact .refl _
    · split
      · exact .refl _
      · split
        · exact kept_modCarrier _ _ _ fun _ => rfl
        · exact kept_queuePassage _ _ _ _ _ _

theorem kept_settleUpTo (ctx : Ctx) (n : Nat) (todo : List Nat) (ev : FloorEvent) :
    FloorKept ev.fl (settleUpTo ctx n todo ev).fl := by
  induction n generalizing todo ev with
  | zero => exact .refl _
  | succ n ih =>
    unfold settleUpTo
    dsimp only
    split
    · exact kept_examine _
    · next x rest _ =>
      exact (kept_examine ev).trans ((kept_form ctx x
        { examine ev with acc := { (examine ev).acc with granted := [] } }).trans (ih _ _))

/-- The examinations and formation attempts of an event keep the map and what is every carrier's own. -/
theorem kept_settle (ctx : Ctx) (ev : FloorEvent) : FloorKept ev.fl (settle ctx ev).fl := kept_settleUpTo _ _ _ _

theorem kept_formAndSettle (ctx : Ctx) (slot : Nat) (ev : FloorEvent) :
    FloorKept ev.fl (formAndSettle ctx slot ev).fl := (kept_form ctx slot ev).trans (kept_settle _ _)

theorem kept_promote (slot : Nat) (ev : FloorEvent) : FloorKept ev.fl (promote slot ev).fl := by
  unfold promote
  split
  · exact .refl _
  · dsimp only
    split
    · exact kept_modCarrier _ _ _ fun _ => rfl
    · exact ((kept_cells ev.fl (fun _ c => { c with waiting := c.waiting.erase slot }) fun _ _ => rfl).trans
        (kept_modCarrier _ slot (fun c => { c with passage := some _ }) fun _ => rfl)).trans
        (kept_insertEverywhere slot _ _)

/-! ## Halts, recomputations and gridlock records -/

theorem kept_haltRelease (ctx : Ctx) (slot : Nat) (state : CarrierState) (cause : HaltedCause) (ev : FloorEvent) :
    FloorKept ev.fl (haltRelease ctx slot state cause ev).fl := by
  have h (reach : Pos) (kept : Nat) (gone : List Nat) : FloorKept ev.fl (releaseAll ctx slot gone
      (ev.onFloor fun f => f.modCarrier slot fun c =>
        { c.modPlace (fun pl => { pl with reach := reach, granted := kept }) with
          state := state
          haltedCause := cause
          ceiling := 0 })).fl := by
    refine FloorKept.trans ?_ (kept_releaseAll ctx slot gone _)
    exact kept_modCarrier ev.fl slot _ fun c => own_modPlace c _ fun _ => rfl
  unfold haltRelease
  split
  · exact h _ _ _
  · exact .refl _

theorem kept_haltShrink (ctx : Ctx) (slot : Nat) (state : CarrierState) (cause : HaltedCause) (ev : FloorEvent) :
    FloorKept ev.fl (haltShrink ctx slot state cause ev).fl :=
  (kept_haltRelease ctx slot state cause ev).trans (kept_withdraw slot _)

theorem kept_haltAlone (ctx : Ctx) (slot : Nat) (state : CarrierState) (cause : HaltedCause) (ev : FloorEvent) :
    FloorKept ev.fl (haltAlone ctx slot state cause ev).fl := by
  unfold haltAlone
  refine FloorKept.trans ?_ (kept_settle ctx _)
  refine FloorKept.trans ?_ (kept_withdraw slot _)
  have h := kept_settle ctx ((haltRelease ctx slot state cause ev).bar [slot])
  rw [FloorEvent.bar_fl] at h
  rw [FloorEvent.bar_fl]
  exact (kept_haltRelease ctx slot state cause ev).trans h

theorem kept_onActive (slot : Nat) (g : FloorEvent → FloorEvent) (h : ∀ ev, FloorKept ev.fl (g ev).fl)
    (ev : FloorEvent) : FloorKept ev.fl (onActive slot g ev).fl := by
  unfold onActive
  split
  · split
    · exact h ev
    · exact .refl _
  · exact .refl _

theorem own_recomputed (f : Floor) (p : Params) (m : Mode) (slot : Nat) (c : Carrier) :
    (c.recomputed f p m slot).own = c.own := by
  unfold Carrier.recomputed
  split
  · next h => simp [Carrier.own, h]
  · next h => simp [Carrier.own, h]

theorem kept_recompute (ctx : Ctx) (slots : List Nat) (f : Floor) : FloorKept f (recompute ctx slots f) :=
  kept_carriers f _ fun s c => by
    split
    · exact own_recomputed _ _ _ _ _
    · rfl

theorem kept_recordRing (now : Nat) (ring : List (Nat × GridLink)) (f : Floor) (o : GridOutcome) :
    FloorKept f (recordRing now ring f o).1 := by
  unfold recordRing
  dsimp only
  split
  · exact .refl _
  · split <;> exact ⟨rfl, rfl, rfl, rfl, fun _ => rfl, fun _ => rfl⟩

theorem kept_searches (now : Nat) (f : Floor) (slots : List Nat) : FloorKept f (searches now f slots).1 := by
  unfold searches
  generalize (⟨[], false⟩ : GridOutcome) = o
  induction slots generalizing f o with
  | nil => exact .refl _
  | cons x r ih =>
    rw [List.foldl_cons]
    dsimp only
    split
    · exact ih f o
    · next ring _ =>
      exact (kept_recordRing now ring f o).trans (ih _ _)

/-! ## Mode entries and the close of an event -/

theorem kept_stopReportTimers (f : Floor) : FloorKept f (stopReportTimers f) := kept_carriers f _ fun _ _ => rfl

theorem kept_haltAllActive (ctx : Ctx) (ev : FloorEvent) : FloorKept ev.fl (haltAllActive ctx ev).fl :=
  kept_foldl _ (fun e x => kept_onActive x _ (kept_haltShrink ctx x .halted .hold) e) _ _

/-- An operation of the floor that keeps it, within an event. -/
theorem kept_onFloor (e : Event) (g : Ctx → FloorEvent → FloorEvent)
    (h : ∀ ctx ev, FloorKept ev.fl (g ctx ev).fl) : FloorKept e.s.floor (e.onFloor g).s.floor :=
  h e.s.ctx ⟨e.s.floor, e.acc⟩

theorem kept_enterLockdown (cause : LockdownCause) (e : Event) :
    FloorKept e.s.floor (enterLockdown cause e).s.floor := by
  unfold enterLockdown
  rw [Event.modeEvent_s]
  refine kept_onFloor (e.onCtl (lockedCtl cause)) _ fun ctx ev => ?_
  refine FloorKept.trans ?_ (kept_settle ctx _)
  exact (kept_withdrawAll ev).trans (kept_stopReportTimers _)

theorem kept_enterHold (cause : HoldCauses) (e : Event) : FloorKept e.s.floor (enterHold cause e).s.floor := by
  unfold enterHold
  rw [Event.modeEvent_s]
  refine kept_onFloor (e.onCtl (heldCtl e.s.clock.siteTime e.s.params cause)) _ fun ctx ev => ?_
  refine FloorKept.trans ?_ (kept_settle ctx _)
  exact (kept_haltAllActive ctx ev).trans (kept_withdrawAll (haltAllActive ctx ev))

theorem kept_handCause (cause : HoldCauses) (e : Event) : FloorKept e.s.floor (handCause cause e).s.floor := by
  have h (k : LockdownCause) (g : ModeController → ModeController) :
      FloorKept e.s.floor (enterLockdown k (e.onCtl g)).s.floor := kept_enterLockdown k (e.onCtl g)
  unfold handCause
  split
  · split
    · exact h _ _
    · exact kept_enterHold _ _
  · split
    · exact h _ _
    · exact kept_enterHold _ _
  · split <;> exact .refl _
  · exact .refl _

theorem kept_closeGridlock (e : Event) : FloorKept e.s.floor (closeGridlock e).s.floor := by
  unfold closeGridlock
  split
  · have h := kept_searches e.s.clock.siteTime e.s.floor (handed e.s.floor e.acc.examined)
    dsimp only
    split
    · split
      · refine h.trans ?_
        exact kept_handCause causeFault ⟨{ e.s with floor := _ }, e.acc, { e.notices with grid := some _ }⟩
      · exact h
    · split <;> exact h
  · exact .refl _

/-- The close of an event keeps the map and what is every carrier's own. -/
theorem kept_close (e : Event) : FloorKept e.s.floor e.close.s.floor := by
  have h : FloorKept e.s.floor (closeReach (closeGridlock e)).s.floor :=
    (kept_closeGridlock e).trans (kept_recompute _ _ _)
  unfold Event.close closeRoutes
  split <;> exact h

end Sys2Proof.Machine
end

