-- ==== Sys2Proof/Laws/Link.lean ====
section
/-! SUPPORT. What sending does: a frame put into the transmit queue goes behind every frame on its way, and nothing
else of the Link Interface changes; what a reply and the notices of an event add; what closing an event without
examinations, recomputations and cuts leaves. -/

namespace Sys2Proof.Machine

/-- A frame put into the transmit queue goes last (R160). -/
@[simp] theorem outgoing_putFrame (f : OutFrame) (l : LinkInterface) : outgoing (putFrame f l) = outgoing l ++ [f] := by
  unfold putFrame outgoing
  split
  · simp
  · split
    · next h1 h2 => simp [h1, h2]
    · simp

theorem lineKept_putFrame (f : OutFrame) (l : LinkInterface) : LineKept l (putFrame f l) := by
  unfold putFrame; split <;> try split
  all_goals exact ⟨rfl, rfl, rfl, rfl, rfl⟩

@[simp] theorem putFrame_rxQueue (f : OutFrame) (l : LinkInterface) : (putFrame f l).rxQueue = l.rxQueue := by
  unfold putFrame; split <;> try split
  all_goals rfl

@[simp] theorem putFrame_rxOverflow (f : OutFrame) (l : LinkInterface) :
    (putFrame f l).rxOverflow = l.rxOverflow := by
  unfold putFrame; split <;> try split
  all_goals rfl

@[simp] theorem putFrame_classes (f : OutFrame) (l : LinkInterface) : (putFrame f l).classes = l.classes := by
  unfold putFrame; split <;> try split
  all_goals rfl

theorem LineKept.refl (l : LinkInterface) : LineKept l l := ⟨rfl, rfl, rfl, rfl, rfl⟩

theorem LineKept.trans {a b c : LinkInterface} (h : LineKept a b) (k : LineKept b c) : LineKept a c :=
  ⟨k.1.trans h.1, k.2.trans h.2, k.3.trans h.3, k.4.trans h.4, k.5.trans h.5⟩

/-- The summary status reads no frame on its way. -/
theorem summary_congr {s t : State} (hc : t.ctl = s.ctl) (hf : t.floor = s.floor)
    (hl : t.link.classes = s.link.classes) (ho : t.link.rxOverflow = s.link.rxOverflow) : summary t = summary s := by
  simp [summary, hc, hf, hl, ho]

theorem noticeContent_congr {s t : State} (k : NoticeKind) (hc : t.ctl = s.ctl) (hf : t.floor = s.floor) :
    k.content t = k.content s := by
  cases k with
  | route r => cases r <;> simp [NoticeKind.content, hf]
  | _ => simp [NoticeKind.content, hc]

/-- The notices of an event, in order, each a frame built from the state that the event leaves (R163). -/
theorem sendNotices_spec (ks : List NoticeKind) (s : State) :
    outgoing (sendNotices s ks).link = outgoing s.link ++ ks.map (noticeFrame s) ∧
    LineKept s.link (sendNotices s ks).link ∧ (sendNotices s ks).link.rxQueue = s.link.rxQueue ∧
    (sendNotices s ks).link.rxOverflow = s.link.rxOverflow ∧
    (sendNotices s ks).link.classes = s.link.classes ∧
    sendNotices s ks = { s with link := (sendNotices s ks).link } := by
  induction ks generalizing s with
  | nil => exact ⟨by simp [sendNotices], LineKept.refl _, rfl, rfl, rfl, rfl⟩
  | cons k r ih =>
    obtain ⟨h1, h2, h3, h4, h5, h6⟩ := ih (sendNotice s k)
    have hs : sendNotices s (k :: r) = sendNotices (sendNotice s k) r := rfl
    have hframe : ∀ x, noticeFrame (sendNotice s k) x = noticeFrame s x := fun x => by
      have a := summary_congr (s := s) (t := sendNotice s k) rfl rfl (by simp [sendNotice]) (by simp [sendNotice])
      have b := noticeContent_congr (s := s) (t := sendNotice s k) x rfl rfl
      simp [noticeFrame, a, b]
    rw [hs]
    refine ⟨?_, ?_, ?_, ?_, ?_, ?_⟩
    · rw [h1, funext hframe]; simp [sendNotice, noticeFrame]
    · exact LineKept.trans (lineKept_putFrame _ _) h2
    · rw [h3]; simp [sendNotice]
    · rw [h4]; simp [sendNotice]
    · rw [h5]; simp [sendNotice]
    · rw [h6]; rfl

/-! ## The close of an event without examinations -/

@[simp] theorem handed_nil (f : Floor) : handed f [] = [] := rfl

@[simp] theorem searches_nil (now : Nat) (f : Floor) : searches now f [] = (f, ⟨[], false⟩) := rfl

/-- A recomputation of no carrier changes nothing. -/
@[simp] theorem recompute_nil (ctx : Ctx) (f : Floor) : recompute ctx [] f = f := by
  simp [recompute, tmap]

/-- The gridlock search of an event in which no cell was examined. -/
theorem closeGridlock_of_examined (e : Event) (h : e.acc.examined = []) : closeGridlock e = e := by
  unfold closeGridlock
  split
  · simp [h]
  · rfl

/-- The close of an event that examined no cell, has no carrier to recompute and cut no route. -/
theorem Event.close_of_none (e : Event) (h1 : e.acc.examined = []) (h2 : e.acc.dirty = []) (h3 : e.acc.cuts = []) :
    e.close = e := by
  unfold Event.close
  rw [closeGridlock_of_examined e h1]
  have : closeReach e = e := by
    unfold closeReach Event.onFloor
    simp [h2, FloorEvent.onFloor]
  rw [this]
  simp [closeRoutes, h3]

/-- The close of an event that has done nothing. -/
@[simp] theorem Event.close_start (s : State) : (Event.start s).close = Event.start s :=
  Event.close_of_none _ rfl rfl rfl

/-- No event, no notice (R163). -/
@[simp] theorem takeNotices_none (p : Params) (c : NoticeClasses) :
    takeNotices p ⟨none, false, none, none⟩ c = ([], c) := rfl

/-- A request whose event has done nothing ends in its reply alone (R160 to R162). -/
theorem finish_start (tag kind : Byte) (s : State) (code : Code) (content : State → List Item) (exec : Bool) :
    (⟨Event.start s, code, content, exec, id⟩ : Served).finish tag kind =
      sendReply tag kind code (content s) exec s := by
  simp [Served.finish, sendNotices]

/-- What a reply does: it goes behind every frame on its way, and its building clears the overflow flag
(R159 to R161). -/
theorem sendReply_spec (tag kind : Byte) (code : Code) (content : List Item) (exec : Bool) (s : State) :
    outgoing (sendReply tag kind code content exec s).link = outgoing s.link ++
      [replyFrame s (sendReply tag kind code content exec s) tag kind code content exec] ∧
    LineKept s.link (sendReply tag kind code content exec s).link ∧
    (sendReply tag kind code content exec s).link.rxQueue = s.link.rxQueue ∧
    (sendReply tag kind code content exec s).link.rxOverflow = false ∧
    (sendReply tag kind code content exec s).link.classes = s.link.classes ∧
    OnlyLink s (sendReply tag kind code content exec s) := by
  have hs : shown s (sendReply tag kind code content exec s) = summary s :=
    summary_congr rfl rfl (by simp [sendReply]) rfl
  refine ⟨?_, ?_, ?_, ?_, ?_, rfl⟩
  · rw [replyFrame, hs]; simp [sendReply]; rfl
  · exact LineKept.trans (b := { s.link with rxOverflow := false }) ⟨rfl, rfl, rfl, rfl, rfl⟩
      (lineKept_putFrame _ { s.link with rxOverflow := false })
  · simp [sendReply]
  · simp [sendReply]
  · simp [sendReply]

end Sys2Proof.Machine
end

