-- ==== Sys2Proof/Laws/PerInstr.lean ====
section
/-! SUPPORT. A statement about every command, proved constructor by constructor: a well-formed request command is
the one that the tag, kind and payload of its frame are read as (R160, R165). -/

namespace Sys2Proof.Laws.RequestRoundTrip

/-- The frame of a well-formed request is read back as that request. -/
def Statement (c : Instr) : Prop :=
  ∀ tag kind payload, c.wellFormed = true → requestFrame c = some (tag, kind, payload) →
    decodeRequest tag kind payload = c

/-- A request of a known kind, given by the command its frame is read as for every tag but 0. -/
theorem of_kind (c : Instr) (tag kind : Byte) (payload : List Byte) (hw : c.wellFormed = requestWf tag payload)
    (hf : requestFrame c = some (tag, kind, payload)) (hd : tag ≠ 0 → decodeRequest tag kind payload = c) :
    Statement c := by
  intro t k p h1 h2
  rw [hf] at h2
  obtain ⟨rfl, rfl, rfl⟩ : tag = t ∧ kind = k ∧ payload = p := by simpa using h2
  rw [hw, requestWf, Bool.and_eq_true, bne_iff_ne] at h1
  exact hd h1.1

/-- A command that no frame carries. -/
theorem of_event (c : Instr) (hf : requestFrame c = none) : Statement c := by
  intro t k p _ h
  simp [hf] at h

theorem describe (tag : Byte) (payload : List Byte) : Statement (.describe tag payload) :=
  of_kind _ tag 0x01 payload rfl rfl fun h => if_neg h

theorem readStatus (tag : Byte) (payload : List Byte) : Statement (.readStatus tag payload) :=
  of_kind _ tag 0x02 payload rfl rfl fun h => if_neg h

theorem setMode (tag : Byte) (payload : List Byte) : Statement (.setMode tag payload) :=
  of_kind _ tag 0x03 payload rfl rfl fun h => if_neg h

theorem hold (tag : Byte) (payload : List Byte) : Statement (.hold tag payload) :=
  of_kind _ tag 0x04 payload rfl rfl fun h => if_neg h

theorem resume (tag : Byte) (payload : List Byte) : Statement (.resume tag payload) :=
  of_kind _ tag 0x05 payload rfl rfl fun h => if_neg h

theorem clearHoldCount (tag : Byte) (payload : List Byte) : Statement (.clearHoldCount tag payload) :=
  of_kind _ tag 0x06 payload rfl rfl fun h => if_neg h

theorem resetArm (tag : Byte) (payload : List Byte) : Statement (.resetArm tag payload) :=
  of_kind _ tag 0x07 payload rfl rfl fun h => if_neg h

theorem resetExecute (tag : Byte) (payload : List Byte) : Statement (.resetExecute tag payload) :=
  of_kind _ tag 0x08 payload rfl rfl fun h => if_neg h

theorem setParameter (tag : Byte) (payload : List Byte) : Statement (.setParameter tag payload) :=
  of_kind _ tag 0x09 payload rfl rfl fun h => if_neg h

theorem readParameter (tag : Byte) (payload : List Byte) : Statement (.readParameter tag payload) :=
  of_kind _ tag 0x0A payload rfl rfl fun h => if_neg h

theorem defineCell (tag : Byte) (payload : List Byte) : Statement (.defineCell tag payload) :=
  of_kind _ tag 0x0B payload rfl rfl fun h => if_neg h

theorem commitMap (tag : Byte) (payload : List Byte) : Statement (.commitMap tag payload) :=
  of_kind _ tag 0x0C payload rfl rfl fun h => if_neg h

theorem lockLayout (tag : Byte) (payload : List Byte) : Statement (.lockLayout tag payload) :=
  of_kind _ tag 0x0D payload rfl rfl fun h => if_neg h

theorem amendCell (tag : Byte) (payload : List Byte) : Statement (.amendCell tag payload) :=
  of_kind _ tag 0x0E payload rfl rfl fun h => if_neg h

theorem readCell (tag : Byte) (payload : List Byte) : Statement (.readCell tag payload) :=
  of_kind _ tag 0x0F payload rfl rfl fun h => if_neg h

theorem readMapState (tag : Byte) (payload : List Byte) : Statement (.readMapState tag payload) :=
  of_kind _ tag 0x10 payload rfl rfl fun h => if_neg h

theorem detectorReport (tag : Byte) (payload : List Byte) : Statement (.detectorReport tag payload) :=
  of_kind _ tag 0x11 payload rfl rfl fun h => if_neg h

theorem declareClear (tag : Byte) (payload : List Byte) : Statement (.declareClear tag payload) :=
  of_kind _ tag 0x12 payload rfl rfl fun h => if_neg h

theorem enrol (tag : Byte) (payload : List Byte) : Statement (.enrol tag payload) :=
  of_kind _ tag 0x13 payload rfl rfl fun h => if_neg h

theorem place (tag : Byte) (payload : List Byte) : Statement (.place tag payload) :=
  of_kind _ tag 0x14 payload rfl rfl fun h => if_neg h

theorem setRoute (tag : Byte) (payload : List Byte) : Statement (.setRoute tag payload) :=
  of_kind _ tag 0x15 payload rfl rfl fun h => if_neg h

theorem extendRoute (tag : Byte) (payload : List Byte) : Statement (.extendRoute tag payload) :=
  of_kind _ tag 0x16 payload rfl rfl fun h => if_neg h

theorem positionReport (tag : Byte) (payload : List Byte) : Statement (.positionReport tag payload) :=
  of_kind _ tag 0x17 payload rfl rfl fun h => if_neg h

theorem readCarrier (tag : Byte) (payload : List Byte) : Statement (.readCarrier tag payload) :=
  of_kind _ tag 0x18 payload rfl rfl fun h => if_neg h

theorem retire (tag : Byte) (payload : List Byte) : Statement (.retire tag payload) :=
  of_kind _ tag 0x19 payload rfl rfl fun h => if_neg h

theorem readFaults (tag : Byte) (payload : List Byte) : Statement (.readFaults tag payload) :=
  of_kind _ tag 0x1A payload rfl rfl fun h => if_neg h

theorem clearFaults (tag : Byte) (payload : List Byte) : Statement (.clearFaults tag payload) :=
  of_kind _ tag 0x1B payload rfl rfl fun h => if_neg h

theorem readGridlocks (tag : Byte) (payload : List Byte) : Statement (.readGridlocks tag payload) :=
  of_kind _ tag 0x1C payload rfl rfl fun h => if_neg h

theorem unknownKindRequest (tag kind : Byte) (payload : List Byte) :
    Statement (.unknownKindRequest tag kind payload) := by
  intro t k p h1 h2
  obtain ⟨rfl, rfl, rfl⟩ : tag = t ∧ kind = k ∧ payload = p := by simpa [requestFrame] using h2
  simp only [Instr.wellFormed, Bool.and_eq_true, Bool.or_eq_true, beq_iff_eq, decide_eq_true_eq] at h1
  unfold decodeRequest
  split
  · rfl
  · next ht =>
    have hk : kind.toNat = 0 ∨ 28 < kind.toNat := by
      rcases h1.1 with (h | h) | h
      · exact absurd h ht
      · left; simp [h]
      · right; simpa [BitVec.lt_def] using h
    split <;> first | rfl | (next h => omega)

theorem powerOnReset (rate1 rate0 : Bool) : Statement (.powerOnReset rate1 rate0) := of_event _ rfl

theorem pinReset : Statement .pinReset := of_event _ rfl

theorem resetInputRelease : Statement .resetInputRelease := of_event _ rfl

theorem requestReset : Statement .requestReset := of_event _ rfl

theorem startupEnd : Statement .startupEnd := of_event _ rfl

theorem goodFrameTaken (bytes : List Byte) : Statement (.goodFrameTaken bytes) := of_event _ rfl

theorem badCrcFrame (bytes : List Byte) : Statement (.badCrcFrame bytes) := of_event _ rfl

theorem framingErrorByte (bytes : List Byte) : Statement (.framingErrorByte bytes) := of_event _ rfl

theorem gapTimerExpiry : Statement .gapTimerExpiry := of_event _ rfl

theorem mapCheckEnd : Statement .mapCheckEnd := of_event _ rfl

theorem reportTimerExpiry (slot : Nat) : Statement (.reportTimerExpiry slot) := of_event _ rfl

theorem waitLimit (slot : Nat) : Statement (.waitLimit slot) := of_event _ rfl

theorem promotion (slot : Nat) : Statement (.promotion slot) := of_event _ rfl

theorem filterTimerExpiry (cell : Nat) : Statement (.filterTimerExpiry cell) := of_event _ rfl

theorem absenceTimerExpiry (cell : Nat) : Statement (.absenceTimerExpiry cell) := of_event _ rfl

theorem linkSupervisionExpiry : Statement .linkSupervisionExpiry := of_event _ rfl

theorem recoveryWindowExpiry : Statement .recoveryWindowExpiry := of_event _ rfl

theorem siteClockWrap : Statement .siteClockWrap := of_event _ rfl

theorem invalidLengthByte (bytes : List Byte) : Statement (.invalidLengthByte bytes) := of_event _ rfl

theorem powerFailure : Statement .powerFailure := of_event _ rfl

end Sys2Proof.Laws.RequestRoundTrip
end

