-- ==== Sys2Proof/Tests/Slice0.lean ====
section
/-! SUPPORT. The model's own tests. First the WellFormed smoke, then, on the small map of section 1.6 with the two
carriers of section 3.8, results that the manual's worked sequences give, and for every statement that has
hypotheses a state and operands that meet them, clause by clause. -/

namespace Sys2Proof.Tests

set_option maxRecDepth 20000
set_option Elab.async false

open Sys2Proof.Machine

/-! ## WellFormed refuses an ill-formed term at each check -/

theorem test_wf_tag_zero : (Instr.describe 0 []).wellFormed = false := by decide

theorem test_wf_payload_too_long : (Instr.setMode 1 (List.replicate 249 0)).wellFormed = false := by decide

theorem test_wf_payload_full : (Instr.setMode 1 (List.replicate 248 0)).wellFormed = true := by decide

theorem test_wf_known_kind_is_no_unknown_request : (Instr.unknownKindRequest 1 0x1C []).wellFormed = false := by
  decide

theorem test_wf_unknown_kind_payload_too_long :
    (Instr.unknownKindRequest 1 0x1D (List.replicate 249 0)).wellFormed = false := by decide

theorem test_wf_line_commands_bring_bytes :
    (Instr.goodFrameTaken []).wellFormed = false ∧ (Instr.badCrcFrame []).wellFormed = false ∧
      (Instr.invalidLengthByte []).wellFormed = false := by decide

theorem test_wf_slot_48 :
    (Instr.reportTimerExpiry 48).wellFormed = false ∧ (Instr.waitLimit 48).wellFormed = false ∧
      (Instr.promotion 48).wellFormed = false := by decide

theorem test_wf_cell_384 :
    (Instr.filterTimerExpiry 384).wellFormed = false ∧ (Instr.absenceTimerExpiry 384).wellFormed = false := by decide

/-! ## Small states -/

/-- A confirmed, vacant cell. -/
def cellOf (kind : CellKind) (length : Nat) (links : List (Point × LinkRef)) (t : Traffic) (detector : Bool) : Cell :=
  { kind := kind, length := length, links := links, defined := t, detector := detector, live := t,
    amendment := none, holders := [], lock := none, waiting := [], raw := .unknown, filtered := .unknown,
    filterTimer := none, absence := .idle, confirmed := true, sweepPending := false, intrusion := none }

/-- A two-way lane. -/
def laneOf (length convoy : Nat) (links : List (Point × LinkRef)) : Cell :=
  cellOf .lane length links ⟨false, 4000, some ⟨.both, false, convoy⟩⟩ false

/-- The small map of section 1.6, as committed. -/
def smallMap : Table Cell :=
  [(10, laneOf 6000 2 [(.a, ⟨20, .w⟩)]),
   (11, laneOf 5000 5 [(.a, ⟨20, .e⟩), (.b, ⟨30, .a⟩)]),
   (20, cellOf .crossing 2000 [(.e, ⟨11, .a⟩), (.s, ⟨40, .a⟩), (.w, ⟨10, .a⟩)] ⟨false, 1000, none⟩ false),
   (30, cellOf .bay 3000 [(.a, ⟨11, .b⟩)] ⟨false, 4000, none⟩ false),
   (40, cellOf .dock 2500 [(.a, ⟨20, .s⟩)] ⟨false, 4000, none⟩ true)]

/-- A carrier of section 3.8, standing at the head of its route. -/
def carrierOf (priority cell offset : Nat) (ahead : List Entry) (dest : Nat) : Carrier :=
  { state := .active, profile := ⟨1200, 2000, 800, priority⟩,
    place := some ⟨⟨cell, .b⟩, offset, ⟨cell, offset, 0, true, 99700⟩, ahead, some dest, 1, [], ⟨cell, offset⟩⟩,
    ceiling := 0, delivered := 0, stalled := false, routeBroken := false, queueRefused := false,
    haltedCause := .none, reportTimer := some ⟨99700, 300⟩, passage := none, faults := [] }

/-- Carrier 3 of section 3.8: lane 10, facing end A, route 10, 20, 11, 30. -/
def carrier3 : Carrier := carrierOf 1 10 5800 [⟨20, .w⟩, ⟨11, .a⟩, ⟨30, .a⟩] 2700

/-- Carrier 5 of section 3.8: dock 40, facing end A, route 40, 20, 10. -/
def carrier5 : Carrier := carrierOf 2 40 2400 [⟨20, .s⟩, ⟨10, .a⟩] 5000

/-- The floor of section 3.8: the small map with carriers 3 and 5, and a slot enrolled without a place. -/
def smallFloor : Floor :=
  { emptyFloor with
    mapState := .valid
    cells := tmod (tmod smallMap 10 fun c => { c with holders := [3], lock := some .bToA }) 40
      fun c => { c with holders := [5] }
    carriers := [(3, carrier3), (5, carrier5),
      (7, { carrier3 with state := .enrolled, place := none, reportTimer := none })]
    queueSeq := 6 }

/-- A Mode Controller in a mode, its running timers due at site time 100 000. -/
def ctlOf (m : Mode) : ModeController :=
  { mode := m
    previous := if m = .hold then .service else .none
    causes := if m = .hold ∨ m = .lockdown then ⟨false, false, true⟩ else noCauses
    lockdownCause := if m = .lockdown then .count else .none
    holdCount := if m = .hold then 1 else 0
    recovery := if m = .hold then some ⟨40000, 60000⟩ else none
    linkTimer := if m = .service ∨ m = .commission ∨ m = .hold then .running ⟨99000, 1000⟩ else .stopped
    halt := if m = .service ∨ m = .commission then false else true
    resetCause := .powerOn }

/-- The part with the floor of section 3.8 in a mode, at site time 100 000. -/
def inMode (m : Mode) : State :=
  { State.reset with clock := ⟨true, false, 100000⟩, ctl := ctlOf m, floor := smallFloor }

/-- A state with its floor changed. -/
def onFloor (s : State) (g : Floor → Floor) : State := { s with floor := g s.floor }

/-- The next state of an outcome. -/
def after : Host.Outcome State Fault Refusal → State
  | .next s => s
  | _ => State.reset

/-- The state a command leaves. -/
def run (c : Instr) (s : State) : State := after (exec c s)

/-- The result code of the reply that a request brings (R162). -/
def codeOf (c : Instr) (s : State) : Option Nat :=
  (((outgoing (run c s).link).find? fun f => f.kind.msb).bind fun f => f.payload[1]?).map (·.toNat)

/-- What the reply carries after its result code, as numbers. -/
def contentOf (c : Instr) (s : State) : Option (List Nat) :=
  ((outgoing (run c s).link).find? fun f => f.kind.msb).map fun f => (f.payload.drop 2).map (·.toNat)

/-- What a carrier shows of itself: its state's number (R19), head, offset, granted count, reach and ceiling. -/
def carrierView (s : State) (slot : Nat) : Option (List Nat) := do
  let c ← s.floor.carrier slot
  let p ← c.place
  return [c.state.num, p.head.cell, p.offset, p.granted, p.reach.cell, p.reach.offset, c.ceiling]

/-- The form of a state's stores, as a test that can be evaluated. -/
def canonical (s : State) : Bool :=
  tableWf Config.cells s.floor.cells && tableWf Config.slots s.floor.carriers &&
  s.floor.carriers.all (fun e => tableWf 6 e.2.faults &&
    decide ((e.2.state = .enrolled ↔ e.2.place = none) ∧
      (e.2.place = none → e.2.passage = none ∧ e.2.ceiling = 0))) &&
  s.floor.cells.all (fun e => decide ((e.2.live.lane.isSome = true ↔ e.2.kind = .lane) ∧
    (e.2.defined.lane.isSome = true ↔ e.2.kind = .lane) ∧
    (e.2.links.map fun x => x.1.num).Pairwise (· < ·) ∧ ∀ x ∈ e.2.links, x.1 ∈ e.2.kind.points)) &&
  decide (s.floor.gridlocks.length ≤ Config.gridlockRecords ∧ s.link.rxQueue.length ≤ Config.rxFrames ∧
    s.floor.queueSeq < clockModulus ∧ s.clock.siteTime < clockModulus)

/-- A lookup finds an entry of the table. -/
theorem mem_of_tget {α : Type} (t : Table α) (k : Nat) (v : α) (h : tget t k = some v) : (k, v) ∈ t := by
  induction t with
  | nil => simp [tget] at h
  | cons e r ih =>
    obtain ⟨j, w⟩ := e
    rw [tget] at h
    split at h
    · rename_i hj; cases h; subst hj; exact List.mem_cons_self ..
    · exact List.mem_cons_of_mem _ (ih h)

theorem canonical_spec (s : State) (h : canonical s = true) : StoresCanonical s := by
  simp only [canonical, Bool.and_eq_true, List.all_eq_true, decide_eq_true_eq] at h
  obtain ⟨⟨⟨⟨h1, h2⟩, h3⟩, h4⟩, h5, h6, h7, h8⟩ := h
  have hc : ∀ x c, s.floor.carrier x = some c → (x, c) ∈ s.floor.carriers := fun x c => mem_of_tget _ x c
  have hk : ∀ x c, s.floor.cell x = some c → (x, c) ∈ s.floor.cells := fun x c => mem_of_tget _ x c
  exact ⟨h1, h2, fun x c e => (h3 _ (hc x c e)).1, fun x c e => (h3 _ (hc x c e)).2.1,
    fun x c e => (h3 _ (hc x c e)).2.2, fun id c e => ⟨(h4 _ (hk id c e)).1, (h4 _ (hk id c e)).2.1⟩,
    fun id c e => (h4 _ (hk id c e)).2.2, h5, h6, h7, h8⟩

theorem smallFloor_canonical : ∀ m, StoresCanonical (inMode m) := by
  intro m; exact canonical_spec _ (by cases m <;> decide)


/-! ## Results of the manual's worked sequences, one step each -/

/-- A Position report of tag 9. -/
def report (slot cell offset speed : Nat) (standstill : Bool) : Instr :=
  .positionReport 9 (PositionFields.bytes ⟨slot, cell, offset, speed, standstill⟩)

/-- A state at another site time. -/
def atTime (t : Nat) (s : State) : State := { s with clock := { s.clock with siteTime := t } }

/-- A passage of section 3.8. -/
def passageOf (cells : List Entry) (seq priority queued : Nat) : Passage :=
  { index := 1, cells := cells, seq := seq, basePriority := priority, priority := priority, queued := queued,
    waitPeriod := 120000, promotePeriod := none }

/-- The floor of section 3.8 after 101 000: P5 and P3 wait, and their ring is recorded. -/
def waitingFloor : Floor :=
  let cells := tmod (tmod (tmod smallFloor.cells 10 fun c => { c with waiting := [5] }) 20
    fun c => { c with waiting := [5, 3] }) 11 fun c => { c with waiting := [3] }
  let p5 := passageOf [⟨20, .s⟩, ⟨10, .a⟩] 6 2 100000
  let p3 := passageOf [⟨20, .w⟩, ⟨11, .a⟩] 7 1 101000
  { smallFloor with
    cells := cells
    carriers := tmod (tmod smallFloor.carriers 5 fun c => { c with passage := some p5 }) 3
      fun c => { c with passage := some p3 }
    queueSeq := 8
    gridlocks := [⟨[3, 5], [⟨20, .ahead⟩, ⟨10, .holds⟩], 101000⟩] }

/-- The lists of section 3.8: the waiting lists, holders and locks of cells 10, 11 and 20. -/
def lists (s : State) : List (List Nat × List Nat × Option Direction) :=
  [10, 11, 20].filterMap fun id => (s.floor.cell id).map fun c => (c.waiting, c.holders, c.lock)

/-- Section 3.8, 100 000: P5 is formed with sequence 6 and waits behind lane 10's lock. -/
theorem test_report_queues_a_passage :
    lists (run (report 5 40 2400 0 true) (inMode .service)) =
      [([5], [3], some .bToA), ([], [], none), ([5], [], none)] := by decide +kernel

/-- Section 3.8, 220 000: the wait limit of P5 lets P3 be granted, in locked lane 11, with reach 4700. -/
theorem test_wait_limit_grants_the_next :
    let s := run (.waitLimit 5) (atTime 220000 (onFloor (inMode .service) fun _ => waitingFloor))
    lists s = [([], [3], some .bToA), ([], [3], some .aToB), ([], [3], none)] ∧ s.floor.gridlocks = [] ∧
      (s.floor.carrier 5).map (·.stalled) = some true ∧
      carrierView s 3 = some [2, 10, 5800, 3, 11, 4700, 1000] := by decide +kernel

/-- Carrier 3 at a place on its route of section 3.8, with what it holds and its ceiling. -/
def carrierAt (head : Entry) (offset granted : Nat) (ahead trail : List Entry) (reach : Pos) (ceiling : Nat) : Carrier :=
  { carrier3 with
    place := some ⟨head, offset, ⟨head.cell, offset, 0, true, 99000⟩, ahead, some 2700, granted, trail, reach⟩
    ceiling := ceiling
    delivered := ceiling }

/-- The small map with one carrier, holding cells. -/
def oneCarrier (s : State) (c : Carrier) (held : List (Nat × Option Direction)) : State :=
  onFloor s fun f => { f with
    carriers := [(3, c)]
    cells := held.foldl (fun t h => tmod t h.1 fun k => { k with holders := [3], lock := h.2 }) smallMap }

/-- Section 3.8, 226 500: at 20 offset 1400 lane 10 is released and its lock cleared. -/
theorem test_report_releases_the_trail :
    let c := carrierAt ⟨20, .w⟩ 900 2 [⟨11, .a⟩, ⟨30, .a⟩] [⟨10, .b⟩] ⟨11, 4700⟩ 1000
    let s := oneCarrier (inMode .service) c [(10, some .bToA), (20, none), (11, some .aToB)]
    lists (run (report 3 20 1400 900 false) s) =
      [([], [], none), ([], [3], some .aToB), ([], [3], none)] := by decide +kernel

/-- The carrier of sections 4.5 and 5.10 on the small map: head in lane 10 at 5000, cells 20 and 11 granted. -/
def approaching : State :=
  oneCarrier (inMode .service)
    (carrierAt ⟨10, .b⟩ 5000 3 [⟨20, .w⟩, ⟨11, .a⟩, ⟨30, .a⟩] [] ⟨11, 4700⟩ 1480)
    [(10, some .bToA), (20, none), (11, some .aToB)]

/-- Section 4.5: the reply at offset 5000 carries reach 11 at 4700 (0x125C) and ceiling 1480 (0x05C8). -/
theorem test_ceiling_of_a_slow_crossing :
    contentOf (report 3 10 5000 1500 false) approaching = some [2, 0, 11, 0x12, 0x5C, 0x05, 0xC8, 0] := by
  decide +kernel

/-- Section 5.10, 40 000: speed 1600 above 1480 + 100 halts the carrier with reach 20 at 1050, releasing 11. -/
theorem test_overspeed_halts :
    let s := run (report 3 10 5200 1600 false) approaching
    carrierView s 3 = some [3, 10, 5200, 2, 20, 1050, 0] ∧
      (s.floor.carrier 3).map (·.faults) = some [(1, ⟨100000, .overspeed 1600 1480, false⟩)] ∧
      lists s = [([], [3], some .bToA), ([], [], none), ([], [3], none)] := by decide +kernel

/-- Section 4.7: a Hold at speed 1500 gives the reach 20 at 657 and releases lane 11. -/
theorem test_hold_shrinks_to_the_stopping_point :
    let moving := onFloor approaching fun f => f.modCarrier 3 fun c => c.modPlace fun p =>
      { p with last := ⟨10, 5000, 1500, false, 100000⟩ }
    let s := run (.hold 9 []) moving
    carrierView s 3 = some [3, 10, 5000, 2, 20, 657, 0] ∧ s.ctl.mode = .hold ∧ s.ctl.holdCount = 1 ∧
      s.ctl.recovery = some ⟨100000, 60000⟩ ∧ s.ctl.halt = true := by decide +kernel

/-- Section 1.6: the map as first sent, in CONFIG and under its check. -/
def firstSent (convoy : Nat) : State :=
  onFloor (inMode .config) fun f => { f with
    mapState := .checking
    mapCheck := some ⟨99970, 30⟩
    carriers := []
    cells := tset (tset smallMap 11 (laneOf 5000 convoy [(.a, ⟨20, .e⟩), (.b, ⟨30, .a⟩)])) 40
      (cellOf .dock 2500 [(.a, ⟨20, .n⟩)] ⟨false, 4000, none⟩ true) }

/-- Section 1.6: the first check ends with cell 11, CONVOY_OVER_LENGTH, the second with cell 20, NOT_RECIPROCAL,
side S. -/
theorem test_map_check_errors :
    (run .mapCheckEnd (firstSent 6)).floor.firstError = some ⟨11, .convoyOverLength, none⟩ ∧
    (run .mapCheckEnd (firstSent 5)).floor.firstError = some ⟨20, .notReciprocal, some .s⟩ ∧
    (run .mapCheckEnd (firstSent 5)).floor.mapState = .invalid := by decide +kernel

/-- Section 1.6: Define cell 10 makes an empty map DRAFT. -/
theorem test_define_cell_drafts :
    let f : DefineCellFields := ⟨10, 0, 6000, [some ⟨20, 5⟩, none, none, none], some 2, some 2, none, none, none, none⟩
    let s := run (.defineCell 9 f.bytes) (onFloor (inMode .config) fun _ => emptyFloor)
    s.floor.mapState = .draft ∧ (s.floor.cell 10).map (fun c => (c.kind, c.length, c.links, c.confirmed)) =
      some (.lane, 6000, [(.a, ⟨20, .w⟩)], false) := by decide +kernel

/-- Section 11.4, 200: Place 3 in cell 10, B_TO_A, offset 5800. -/
theorem test_place_holds_and_locks :
    let c := { carrier3 with state := .enrolled, place := none, reportTimer := none }
    let s := run (.place 9 (PlaceFields.bytes ⟨3, 10, 1, 5800⟩))
      (onFloor (inMode .config) fun f => { f with carriers := [(3, c)], cells := smallMap })
    lists s = [([], [3], some .bToA), ([], [], none), ([], [], none)] ∧
      carrierView s 3 = some [2, 10, 5800, 1, 10, 5800, 0] := by decide +kernel

/-- Section 11.4, 800: Set mode SERVICE releases HALT and starts the link timer. -/
theorem test_set_mode_service :
    let s := run (.setMode 9 [1]) (atTime 800 (inMode .config))
    s.ctl.mode = .service ∧ s.ctl.halt = false ∧ s.ctl.linkTimer = .running ⟨800, 1000⟩ := by decide +kernel

/-- Section 7.5, 300 100: an amendment of the held crossing is PENDING, and the live values stay. -/
theorem test_amend_pending :
    let c := Instr.amendCell 9 (AmendCellFields.bytes ⟨20, some 1, none, none, none, none⟩)
    (contentOf c approaching).map (·.take 1) = some [1] ∧
      ((run c approaching).floor.cell 20).map (fun k => (k.amendment, k.live.closed)) =
        some (some ⟨some true, none, none, none, none⟩, false) := by decide +kernel

/-- Section 11.5, 8100: Retire at dock 40 sweeps the dock. -/
theorem test_retire_sweeps :
    let c := carrierAt ⟨40, .a⟩ 2200 1 [] [] ⟨40, 2200⟩ 0
    let s := run (.retire 9 [3]) (oneCarrier (inMode .service) c [(40, none)])
    s.floor.carrier 3 = none ∧ (s.floor.cell 40).map (fun k => (k.holders, k.confirmed, k.raw, k.filtered)) =
      some ([], false, .unknown, .unknown) := by decide +kernel

/-- Section 6.6: with filter_time 200, absence_time 150 stores 300 (0x12C); with absence_time 1000, filter_time 1200
stores 900 (0x384). -/
theorem test_filter_and_absence_clamp :
    contentOf (.setParameter 9 (SetParameterFields.bytes ⟨4, 150⟩)) (inMode .config) =
      some [0, 0, 3, 0xE8, 0, 0, 1, 0x2C] ∧
    contentOf (.setParameter 9 (SetParameterFields.bytes ⟨3, 1200⟩)) (inMode .config) =
      some [0, 0, 0, 200, 0, 0, 3, 0x84] := by decide +kernel

/-- Section 6.8: lane 15's levels, here dock 40 without a holder. -/
def dockAt (raw filtered : Level) (filter : Option Timer) : State :=
  onFloor (inMode .service) fun f => { f with
    carriers := []
    cells := tmod smallMap 40 fun c => { c with raw := raw, filtered := filtered, filterTimer := filter } }

/-- Section 6.8, 50 000 and 51 200: a report of OCC starts the filter timer, and its expiry latches INTRUSION. -/
theorem test_detector_report_and_filter :
    (((run (.detectorReport 9 (DetectorReportFields.bytes ⟨40, 1⟩)) (dockAt .empty .empty none)).floor.cell 40).map
      fun c => (c.raw, c.filtered, c.filterTimer)) = some (.occ, .empty, some ⟨100000, 200⟩) ∧
    (((run (.filterTimerExpiry 40) (dockAt .occ .empty (some ⟨99800, 200⟩))).floor.cell 40).map
      fun c => (c.filtered, c.filterTimer, c.intrusion)) = some (.occ, none, some 100000) := by decide +kernel

/-- Section 9.10, 1 200 000: the link supervision expiry in SERVICE brings HOLD with cause LINK, LAPSED. -/
theorem test_link_supervision_holds :
    let s := run .linkSupervisionExpiry (inMode .service)
    (s.ctl.mode, s.ctl.causes, s.ctl.holdCount, s.ctl.linkTimer) = (.hold, ⟨true, false, false⟩, 1, .lapsed) := by
  decide +kernel

/-- Section 9.10, last lines: the window's expiry brings LOCKDOWN with cause WINDOW and the causes kept. -/
theorem test_recovery_window_locks_down :
    let s := run .recoveryWindowExpiry (inMode .hold)
    (s.ctl.mode, s.ctl.causes, s.ctl.lockdownCause, s.ctl.holdCount) =
      (.lockdown, ⟨false, false, true⟩, .window, 0) := by decide +kernel

/-- Section 10.8: the Position report with a damaged CRC is lost, and the Read carrier after it recovered. -/
theorem test_false_start_recovers_the_next_frame :
    let bad := [0xC3, 0x0A, 0x21, 0x17, 0x03, 0x00, 0x14, 0x03, 0xC3, 0x05, 0x14, 0x00, 0x55, 0x55]
    let s := run (.goodFrameTaken (bad ++ frameBytes 0x22 0x18 [3] ++ frameBytes 0x23 0x02 [])) (inMode .config)
    s.link.rxQueue = [⟨0x22, 0x18, [3], false⟩, ⟨0x23, 0x02, [], false⟩] ∧ s.link.receiver.phase = .hunt := by
  decide +kernel

/-- Section 10.5: the table's third row; a Reset execute after two Reset arms is marked armed. -/
theorem test_reset_arm_twice :
    let s := run (.goodFrameTaken (frameBytes 1 7 [] ++ frameBytes 2 7 [] ++ frameBytes 3 8 [])) (inMode .config)
    s.link.rxQueue.map (·.armed) = [false, false, true] ∧ s.link.resetArm = false := by decide +kernel

/-- Section 10.8: a fifth frame finds the queue full and sets the overflow flag. -/
theorem test_receive_overflow :
    let f := fun tag => frameBytes tag 0x18 [3]
    let s := run (.goodFrameTaken (f 13 ++ f 14 ++ f 15 ++ f 16 ++ f 17)) (inMode .service)
    s.link.rxQueue.map (·.tag) = [13, 14, 15, 16] ∧ s.link.rxOverflow = true := by decide +kernel

/-- The check value of this CRC (R157) over the digits 1 to 9, known outside the manual (PRESUMED). -/
theorem test_crc_check_value :
    crc16 [0x31, 0x32, 0x33, 0x34, 0x35, 0x36, 0x37, 0x38, 0x39] = 0x29B1#16 := by decide

/-- Sections 4.5 and 4.7: end terms, braking terms, lookahead and stopping distance. -/
theorem test_worked_terms :
    endTerm defaultParams 800 10350 = 4019 ∧ endTerm defaultParams 800 7700 = 3452 ∧
      brakingTerm defaultParams 800 1000 3650 = 2537 ∧ brakingTerm defaultParams 800 2000 5650 = 3555 ∧
      lookahead defaultParams ⟨1200, 2000, 800, 0⟩ = 3050 ∧ stoppingDistance defaultParams 800 1500 = 1657 := by
  decide +kernel

/-- Section 4.6: carrier 6's free distance behind carrier 2 at 14 offset 5200, and once the tail has left. -/
theorem test_convoy_limit :
    let leader := fun (head : Entry) offset trail => { carrierAt head offset 1 [] trail ⟨21, 0⟩ 0 with
      profile := ⟨1500, 2500, 1000, 0⟩ }
    let lane14 := { laneOf 8000 3 [(.b, ⟨21, .w⟩)] with holders := [2, 6], lock := some .aToB }
    let floor := fun lead : Carrier => { emptyFloor with
      cells := [(14, lane14), (21, cellOf .crossing 2000 [(.w, ⟨14, .b⟩)] ⟨false, 4000, none⟩ false)]
      carriers := [(2, lead)] }
    let six : Placement := ⟨⟨14, .a⟩, 1800, ⟨14, 1800, 0, true, 0⟩, [⟨21, .w⟩], none, 1, [], ⟨14, 1800⟩⟩
    six.freeDistance (floor (leader ⟨14, .a⟩ 5200 [])) defaultParams 6 = 1400 ∧
      six.freeDistance (floor (leader ⟨21, .w⟩ 1200 [⟨14, .a⟩])) defaultParams 6 = 5400 ∧
      six.freeDistance (floor (leader ⟨21, .w⟩ 1550 [⟨14, .a⟩])) defaultParams 6 = 5900 := by decide +kernel

/-- Section 8.6: the record of the full loop, carriers 15, 4 and 9. -/
theorem test_full_loop_ring :
    let cell := fun waiting holders => { laneOf 3000 1 [] with waiting := waiting, holders := holders, lock := some .aToB }
    let crossing := fun waiting => { cellOf .crossing 2000 [] ⟨false, 4000, none⟩ false with waiting := waiting }
    let car := fun (cells : List Entry) seq => { carrier3 with passage := some (passageOf cells seq 0 600000) }
    let f : Floor := { emptyFloor with
      cells := [(71, crossing [4]), (72, crossing [9]), (73, crossing [15]), (81, cell [4] [9]), (82, cell [9] [15]),
        (83, cell [15] [4])]
      carriers := [(4, car [⟨71, .w⟩, ⟨81, .a⟩] 50), (9, car [⟨72, .w⟩, ⟨82, .a⟩] 51),
        (15, car [⟨73, .w⟩, ⟨83, .a⟩] 52)] }
    searchRing f 15 = some [(15, ⟨83, .holds⟩), (4, ⟨81, .holds⟩), (9, ⟨82, .holds⟩)] := by decide +kernel

/-! ## Witnesses: the hypotheses of each statement are met, clause by clause -/

/-- What holds of every listed cell holds of every cell. -/
theorem all_cells {f : Floor} {P : Nat → Cell → Prop} (h : ∀ e ∈ f.cells, P e.1 e.2) :
    ∀ id c, f.cell id = some c → P id c := fun id c e => h (id, c) (mem_of_tget _ _ _ e)

/-- What holds of every listed carrier holds of every carrier. -/
theorem all_carriers {f : Floor} {P : Nat → Carrier → Prop} (h : ∀ e ∈ f.carriers, P e.1 e.2) :
    ∀ x c, f.carrier x = some c → P x c := fun x c e => h (x, c) (mem_of_tget _ _ _ e)

/-- The part with a map of cells and no carrier. -/
def vacant (m : Mode) : State := onFloor (inMode m) fun f => { f with carriers := [], cells := smallMap }

/-- The part during a map check, in CONFIG. -/
def checking : State := firstSent 5

/-- The part with a received frame at the front of its queue. -/
def received (s : State) (f : Frame) : State := { s with link := { s.link with rxQueue := [f] } }

theorem witness_StepRunsFrontCommand :
    step { inMode .service with pending := [.hold 9 [], .pinReset] } =
      exec (.hold 9 []) { inMode .service with pending := [.pinReset] } := rfl

theorem witness_IdleStep :
    let off := { inMode .config with clock := ⟨false, false, 0⟩ }
    let held := { inMode .config with clock := ⟨true, true, 0⟩ }
    let reset := { vacant .config with link := { State.reset.link with resetDue := true } }
    let due := inMode .config
    let frame := received (vacant .config) ⟨1, 2, [], false⟩
    let told := { frame with link := { frame.link with txQueue := [⟨0, 0x42, [], false⟩] } }
    let badTag := { frame with link := { frame.link with txQueue := [⟨0, 0x82, [], false⟩] } }
    let leaving := { frame with link := { frame.link with sending := some (⟨1, 0x88, [0, 0, 2], true⟩, 5000) } }
    let early := received (atTime 39 State.reset) ⟨1, 2, [], false⟩
    let first := { onFloor State.reset fun _ => emptyFloor with ctl := ctlOf .service }
    let last := atTime 4294967295 { first with ctl := { ctlOf .service with linkTimer := .running ⟨4294966296, 1000⟩ } }
    (∀ s ∈ [off, held, reset, due, frame, told, badTag, leaving, early, vacant .config, last], s.pending = []) ∧
      off.clock.powered = false ∧ held.clock.resetHeld = true ∧
      (∀ s ∈ [reset, due, frame, told, badTag, leaving, early, vacant .config, last],
        s.clock.powered = true ∧ s.clock.resetHeld = false) ∧
      reset.link.resetDue = true ∧ due.link.resetDue = false ∧ EventDue due (.reportTimerExpiry 3) ∧
      (∀ s ∈ [frame, told, badTag, leaving, early, vacant .config, last], s.link.resetDue = false ∧ ∀ i, ¬ EventDue s i) ∧
      after (step frame) = { frame with pending := [.readStatus 1 []] } ∧
      after (step told) = { told with pending := [.readStatus 1 []] } ∧
      (after (step badTag)).clock.siteTime = 100001 ∧ (after (step leaving)).clock.siteTime = 100001 ∧
      (after (step leaving)).link.rxQueue = [⟨1, 2, [], false⟩] ∧ (after (step early)).clock.siteTime = 40 ∧
      (after (step (vacant .config))).clock.siteTime = 100001 ∧
      (after (step (after (step last)))).pending = [.linkSupervisionExpiry] := by
  refine ⟨by decide +kernel, rfl, rfl, by decide +kernel, rfl, rfl, ?_, ?_, by decide +kernel⟩
  · exact (mem_dueEvents _ rfl rfl _).1 (by decide +kernel)
  · intro s hs
    have : dueEvents s = [] ∧ s.clock.powered = true ∧ s.clock.resetHeld = false ∧ s.link.resetDue = false := by
      revert s; decide +kernel
    exact ⟨this.2.2.2, fun i h => by simpa [this.1] using (mem_dueEvents s this.2.1 this.2.2.1 i).2 h⟩

/-- Section 11.3: an event due as the Site Clock wraps is taken at site time 0. -/
theorem test_wrap_takes_what_is_due :
    let s := atTime 4294967295 { vacant .service with
      ctl := { ctlOf .service with linkTimer := .running ⟨4294966296, 1000⟩ } }
    (after (step (run .siteClockWrap s))).pending = [.linkSupervisionExpiry] := by decide +kernel

theorem witness_ModeConsistent : ∀ m, ModeConsistent (inMode m) := by
  intro m; cases m <;> exact ⟨by decide, by decide, by decide, by decide, by decide, by decide, by decide⟩

theorem witness_HoldersBounded : HoldersBounded (inMode .service).floor ∧ HoldersBounded waitingFloor := by
  constructor
  · exact ⟨all_cells (by decide), all_cells (by decide),
      fun x c pl h e => (all_carriers (P := fun _ c => ∀ pl ∈ c.place, ((pl.head :: pl.ahead).map (·.cell)).Nodup)
        (by decide) x c h) pl e,
      fun x c p h e => (all_carriers (P := fun _ c => ∀ p ∈ c.passage, (p.cells.map (·.cell)).Nodup)
        (by decide) x c h) p e⟩
  · exact ⟨all_cells (by decide), all_cells (by decide),
      fun x c pl h e => (all_carriers (P := fun _ c => ∀ pl ∈ c.place, ((pl.head :: pl.ahead).map (·.cell)).Nodup)
        (by decide) x c h) pl e,
      fun x c p h e => (all_carriers (P := fun _ c => ∀ p ∈ c.passage, (p.cells.map (·.cell)).Nodup)
        (by decide) x c h) p e⟩

theorem witness_StoresCanonical : ∀ m, StoresCanonical (inMode m) := smallFloor_canonical

/-- The bounds of WithinCapacity, as a test that can be evaluated. -/
def capacities (f : Floor) : Bool :=
  (f.carriers.all fun e => decide (e.2.profile.length ≤ 3000 ∧
    (∀ pl ∈ e.2.place, pl.ahead.length + 1 ≤ 32 ∧ pl.trail.length ≤ 6 ∧
      ∀ x ∈ pl.head :: (pl.ahead ++ pl.trail), (f.cell x.cell).isSome = true) ∧
    ∀ p ∈ e.2.passage, p.cells ≠ [] ∧ p.cells.length ≤ 8 ∧
      ∀ x ∈ p.cells, ∃ c ∈ (f.cell x.cell).toList, e.1 ∈ c.waiting)) &&
  f.cells.all fun e => decide (e.2.waiting.length ≤ 8 ∧ e.2.waiting.Nodup ∧ 1000 ≤ e.2.length ∧
    (∀ x ∈ e.2.waiting, ∃ p ∈ (f.waitingPassage x).toList, e.1 ∈ p.cells.map (·.cell)) ∧
    (e.2.waiting.Pairwise fun x y => ∀ a ∈ f.waitingPassage x, ∀ b ∈ f.waitingPassage y,
      b.priority < a.priority ∨ (b.priority = a.priority ∧ a.seq ≤ b.seq)) ∧
    (∀ n ∈ (e.2.live.lane.map (·.convoy)).toList ++ (e.2.defined.lane.map (·.convoy)).toList
      ++ (e.2.amendment.bind (·.convoy)).toList, 1 ≤ n ∧ n ≤ 6))

theorem capacities_spec (f : Floor) (h : capacities f = true) : WithinCapacity f := by
  simp only [capacities, Bool.and_eq_true, List.all_eq_true, decide_eq_true_eq] at h
  have hc := fun x c (e : f.carrier x = some c) => h.1 _ (mem_of_tget _ x c e)
  have hk := fun id c (e : f.cell id = some c) => h.2 _ (mem_of_tget _ id c e)
  have hp : ∀ x p, f.waitingPassage x = some p → ∃ c, f.carrier x = some c ∧ c.passage = some p := fun x p e => by
    simpa [Floor.waitingPassage, Option.bind_eq_some_iff] using e
  refine ⟨fun x c pl e q => ((hc x c e).2.1 pl q).1, fun x c pl e q => ((hc x c e).2.1 pl q).2.1,
    fun x c pl e q y hy => ((hc x c e).2.1 pl q).2.2 y (by simpa using hy), fun x p e => ?_,
    fun id c e => ⟨(hk id c e).1, (hk id c e).2.1⟩, fun x p y e hy => ?_, fun id c x e hx => ?_,
    fun id c e => (hk id c e).2.2.2.2.1.imp fun h a b ha hb => h a ha b hb, fun id c e n hn => (hk id c e).2.2.2.2.2 n ?_,
    fun id c e => (hk id c e).2.2.1, fun x c e => (hc x c e).1⟩
  · obtain ⟨c, e, q⟩ := hp x p e
    exact ⟨((hc x c e).2.2 p q).1, ((hc x c e).2.2 p q).2.1⟩
  · obtain ⟨c, e, q⟩ := hp x p e
    simpa using ((hc x c e).2.2 p q).2.2 y hy
  · simpa using (hk id c e).2.2.2.1 x hx
  · simpa using hn

theorem witness_WithinCapacity : ∀ m, WithinCapacity (inMode m).floor ∧ WithinCapacity waitingFloor :=
  fun _ => ⟨capacities_spec smallFloor (by decide +kernel), capacities_spec _ (by decide +kernel)⟩

/-- The relations of HoldingsExact, as a test that can be evaluated. -/
def holdings (s : State) : Bool :=
  (s.floor.carriers.all fun e => decide (∀ pl ∈ e.2.place,
    (∀ k ∈ s.floor.cells, e.1 ∈ k.2.holders ↔
      k.1 ∈ (pl.trail ++ pl.head :: pl.ahead.take (pl.granted - 1)).map (·.cell)) ∧
    ((pl.trail ++ pl.head :: pl.ahead).map (·.cell)).Nodup ∧
    (1 ≤ pl.granted ∧ pl.granted ≤ pl.ahead.length + 1 ∧
      (s.ctl.mode = .startup ∨ s.ctl.mode = .config → pl.granted = 1)) ∧
    (∀ x ∈ (pl.head :: pl.ahead).zip pl.ahead, ∃ k ∈ (s.floor.cell x.1.cell).toList, ∃ y ∈ k.links,
      (y.2.cell = x.2.cell ∧ y.1 ≠ x.1.entry ∧
        ∀ z ∈ k.links, z.2.cell = x.2.cell → z.1 ≠ x.1.entry → y.1.num ≤ z.1.num) ∧ y.2.point = x.2.entry) ∧
    ∀ p ∈ e.2.passage, p.index = pl.granted ∧ p.cells <+: pl.ahead.drop (pl.granted - 1))) &&
  s.floor.cells.all fun e => decide (e.2.holders.Nodup ∧
    ∀ x ∈ e.2.holders, ∃ c ∈ (s.floor.carrier x).toList, c.place.isSome = true)

theorem holdings_spec (s : State) (h : holdings s = true) : HoldingsExact s := by
  simp only [holdings, Bool.and_eq_true, List.all_eq_true, decide_eq_true_eq] at h
  have hc := fun x c (e : s.floor.carrier x = some c) => h.1 _ (mem_of_tget _ x c e)
  have hk := fun id c (e : s.floor.cell id = some c) => h.2 _ (mem_of_tget _ id c e)
  refine ⟨fun x c pl id k e q r => (hc x c e pl q).1 (id, k) (mem_of_tget _ id k r), fun x id k e hx => ?_,
    fun id k e => (hk id k e).1, fun x c pl e q => (hc x c e pl q).2.1, fun x c pl e q => (hc x c e pl q).2.2.1,
    fun x c pl i prev e h q hp he => ?_, fun x c pl p e q hp => (hc x c e pl q).2.2.2.2 p hp⟩
  · obtain ⟨c, h, q⟩ := (hk id k e).2 x hx
    exact ⟨c, c.place.get q, by simpa using h, by simp⟩
  · obtain ⟨k, hk', y, hy, hx, hq⟩ := (hc x c h pl q).2.2.2.1 (prev, e)
      (List.mem_of_getElem? (List.getElem?_zip_eq_some.2 ⟨hp, he⟩))
    exact ⟨k, y, by simpa using hk', ⟨hy, hx.1, hx.2.1, hx.2.2⟩, hq⟩

theorem witness_HoldingsExact :
    (∀ m, HoldingsExact (inMode m)) ∧ HoldingsExact approaching ∧
      HoldingsExact (onFloor (inMode .service) fun _ => waitingFloor) :=
  ⟨fun m => holdings_spec _ (by cases m <;> decide +kernel), holdings_spec _ (by decide +kernel),
    holdings_spec _ (by decide +kernel)⟩

/-- A reply to an accepted Reset execute ends within the millisecond, and another frame goes on. -/
theorem witness_TransmitterKeepsOrder :
    let l := State.reset.link
    let last := { l with sending := some (⟨9, 0x88, [0, 0, 2], true⟩, 100) }
    let more := { l with sending := some (⟨9, 0x82, [0, 0], false⟩, 100), txQueue := [⟨0, 0x42, [0, 1], false⟩] }
    last.resetDue = false ∧ (transmit 1 1152 last).resetDue = true ∧ more.sending.isSome = true ∧
      (∀ o ∈ outgoing more, o.execReply = false) ∧
      (transmit 2 400 more).sending = some (⟨0, 0x42, [0, 1], false⟩, 500) := by decide +kernel

/-- Section 10.5: a notice of an event after the reply of the Reset execute does not begin, and the reset
discards it. -/
theorem test_reset_discards_the_notice :
    let s := { inMode .service with link := { State.reset.link with resetDue := true } }
    let t := run .linkSupervisionExpiry s
    t.link.sending = none ∧ t.link.txQueue.length = 1 ∧ outgoing (run .requestReset t).link = [] := by decide +kernel

theorem witness_ParamsInRange : ParamsInRange defaultParams :=
  ⟨fun id h1 h2 => by interval_cases id <;> decide, fun id h1 h2 => by interval_cases id <;> decide, by decide,
    by decide, by decide⟩

theorem witness_StoppedWhileHeld : StoppedWhileHeld (inMode .hold) ∧ StoppedWhileHeld (inMode .lockdown) :=
  ⟨fun _ => all_carriers (by decide), fun _ => all_carriers (by decide)⟩

theorem witness_NothingWaits : NothingWaits (inMode .config) ∧ NothingWaits (inMode .hold) :=
  ⟨fun _ _ => all_carriers (by decide), fun _ _ => all_carriers (by decide)⟩

/-- The steps that the invariants speak of answer a next state. -/
theorem witness_step_answers : ∀ m, ∃ t, step { inMode m with pending := [.hold 9 []] } = .next t :=
  fun _ => ⟨_, rfl⟩

theorem witness_SlowStateWriters :
    (run (.setParameter 9 (SetParameterFields.bytes ⟨7, 400⟩)) (vacant .config)).params.stopGap = 400 ∧
      (run (.lockLayout 9 []) (vacant .config)).floor.layoutLock = true ∧
      (run .pinReset (vacant .config)).ctl.resetCause = .pin := by decide +kernel

theorem witness_OneReplyPerRequest :
    (Instr.hold 9 []).wellFormed = true ∧ requestFrame (.hold 9 []) = some (9, 4, []) ∧
      (inMode .service).ready = true ∧ codeOf (.hold 9 []) (inMode .service) = some 0 ∧
      codeOf (.hold 9 []) (inMode .config) = some 3 := by decide +kernel

theorem witness_RequestsJudgedFirst :
    let zero := Instr.unknownKindRequest 0 1 []
    let low := Instr.unknownKindRequest 9 0 []
    let high := Instr.unknownKindRequest 9 0x1D []
    (∀ c ∈ [zero, low, high, .setMode 9 [], .setMode 9 [1]], c.wellFormed = true) ∧
      [zero, low, high, .setMode 9 [], .setMode 9 [1]].map requestFrame =
        [some (0, 1, []), some (9, 0, []), some (9, 0x1D, []), some (9, 3, []), some (9, 3, [1])] ∧
      payloadReads 3 [] = false ∧ payloadReads 3 [1] = true ∧
      (∀ s ∈ [inMode .service, checking, inMode .lockdown], s.ready = true) ∧
      checking.floor.mapState = .checking ∧ (inMode .lockdown).floor.mapState ≠ .checking ∧
      [codeOf zero (inMode .service), codeOf low (inMode .service), codeOf high (inMode .service),
        codeOf (.setMode 9 []) checking, codeOf (.setMode 9 [1]) checking, codeOf (.setMode 9 [1]) (inMode .lockdown)] =
        [some 9, some 8, some 8, some 7, some 2, some 5] := by
  decide +kernel

theorem witness_SilentBeforeReady :
    State.reset.ready = false ∧ (inMode .startup).ready = false ∧ (requestFrame (.describe 9 [])).isSome = true ∧
      exec (.describe 9 []) State.reset = .next State.reset := ⟨by decide, by decide, by decide, rfl⟩

theorem witness_GoodFrameQueued :
    let long : List Byte := List.replicate 248 0xC3
    let full := { inMode .config with link := { State.reset.link with rxQueue := List.replicate 4 ⟨1, 2, [], false⟩ } }
    (∀ s ∈ [inMode .config, full, inMode .startup], s.clock.powered = true ∧ s.clock.resetHeld = false ∧
      s.link.receiver.phase = .hunt) ∧ long.length ≤ 248 ∧ (inMode .startup).ctl.mode = .startup ∧
    (run (.goodFrameTaken (frameBytes 9 0x0B long)) (inMode .config)).link.rxQueue = [⟨9, 0x0B, long, false⟩] ∧
    (run (.goodFrameTaken (frameBytes 9 0x0B [])) full).link.rxOverflow = true ∧
    (run (.goodFrameTaken (frameBytes 9 0x0B [])) (inMode .startup)).link.rxQueue = [] := by decide +kernel

theorem witness_BadFramesRescanned :
    let s := inMode .config
    let gap := { s with link := { s.link with receiver := ⟨.length, false, []⟩, gapTimer := some ⟨99995, 5⟩ } }
    let off := { s with clock := ⟨false, false, 0⟩ }
    let held := { s with clock := ⟨true, true, 0⟩ }
    s.clock.powered = true ∧ s.clock.resetHeld = false ∧ s.link.receiver.phase = .hunt ∧
      [0x00#8, 0x00#8] ≠ crcBytes (frameBody 9 2 []) ∧ 0xC3#8 ∉ frameBody 9 2 [] ++ [0x00#8, 0x00#8] ∧
      [0x00#8, 0x00#8] ≠ crcBytes (frameBody 9 2 [0xC3#8]) ∧
      (∀ n ∈ [0x00#8, 0x01#8, 0xFB#8, 0xFF#8], n.toNat < 2 ∨ 250 < n.toNat) ∧
      5 ≤ elapsed gap.clock.siteTime 99995 ∧ gap.link.gapTimer = some ⟨99995, 5⟩ ∧
      off.clock.powered = false ∧ held.clock.resetHeld = true ∧
      (run .gapTimerExpiry gap).link.receiver.phase = .hunt ∧
      (run (.framingErrorByte [0xC3]) s).link.receiver.phase = .hunt := by decide +kernel

theorem witness_reads :
    (inMode .service).ready = true ∧ (9 : Byte) ≠ 0 ∧ (inMode .service).floor.mapState ≠ .checking ∧
      (inMode .service).ctl.mode ≠ .lockdown ∧ 383 < 384 ∧ 47 < 48 ∧
      codeOf (.readCell 9 (beBytes 2 383)) (inMode .service) = some 0 ∧
      codeOf (.readCarrier 9 (beBytes 1 47)) (inMode .service) = some 0 ∧
      codeOf (.readParameter 9 (beBytes 1 1)) (inMode .service) = some 0 ∧
      codeOf (.readParameter 9 (beBytes 1 29)) (inMode .service) = some 0 ∧
      (inMode .lockdown).ready = true ∧ codeOf (.readCell 9 (beBytes 2 0)) (inMode .lockdown) = some 0 ∧
      checking.ready = true ∧ codeOf (.describe 9 []) checking = some 0 ∧ codeOf (.readStatus 9 []) checking = some 0 := by
  decide +kernel

theorem witness_rearming :
    (run (.readFaults 9 []) (inMode .lockdown)).link.classes.fault = ⟨true, false⟩ ∧
      codeOf (.readGridlocks 9 []) (inMode .service) = some 0 ∧
      codeOf (.readMapState 9 []) (inMode .service) = some 0 ∧
      (inMode .service).floor.mapState ≠ .checking ∧ (inMode .service).ctl.mode ≠ .lockdown := by decide +kernel

theorem witness_TwoStepReset :
    let not := received (inMode .service) ⟨9, 0x08, [], false⟩
    let armed := received (inMode .service) ⟨9, 0x08, [], true⟩
    not.ready = true ∧ armed.ready = true ∧ not.link.rxQueue = [⟨9, 0x08, [], false⟩] ∧
      armed.link.rxQueue = [⟨9, 0x08, [], true⟩] ∧ codeOf (.resetExecute 9 []) not = some 0x0C ∧
      (inMode .service).link.rxQueue = [] ∧ codeOf (.resetExecute 9 []) (inMode .service) = some 0x0C ∧
      codeOf (.resetExecute 9 []) armed = some 0 ∧ contentOf (.resetExecute 9 []) armed = some [2] := by
  decide +kernel

/-- R165: the hold_limit of Read status has the four bytes of a parameter value. -/
theorem test_read_status_hold_limit :
    (contentOf (.readStatus 9 []) (inMode .service)).map (fun l => (l.drop 4).take 5) = some [0, 0, 0, 0, 4] := by
  decide +kernel

theorem witness_SetModeJudged :
    let draft := onFloor (inMode .config) fun f => { f with mapState := .draft }
    let moving := onFloor (inMode .service) fun f => f.modCarrier 3 fun c => c.modPlace fun p =>
      { p with last := { p.last with standstill := false } }
    (∀ s ∈ [inMode .config, inMode .service, inMode .lockdown, inMode .hold, checking, draft, moving],
      s.ready = true) ∧
    codeOf (.setMode 9 []) (inMode .config) = some 7 ∧ codeOf (.setMode 9 [1]) checking = some 2 ∧
    codeOf (.setMode 9 [1]) (inMode .lockdown) = some 5 ∧ codeOf (.setMode 9 [3]) (inMode .config) = some 6 ∧
    codeOf (.setMode 9 [1]) (inMode .hold) = some 3 ∧ codeOf (.setMode 9 [0]) (inMode .config) = some 0 ∧
    draft.floor.mapState ≠ .valid ∧ codeOf (.setMode 9 [1]) draft = some 4 ∧
    notStanding moving.floor = [3] ∧ codeOf (.setMode 9 [0]) moving = some 4 ∧
    contentOf (.setMode 9 [0]) moving = some [1, 1, 3] ∧
    notStanding (inMode .service).floor = [] ∧ (run (.setMode 9 [0]) (inMode .service)).ctl.mode = .config := by
  decide +kernel

theorem witness_ModeChangesAct :
    (inMode .config).ready = true ∧ (inMode .config).ctl.mode = .config ∧ (inMode .config).floor.mapState = .valid ∧
      (inMode .service).ctl.mode = .service ∧ (inMode .commission).ctl.mode = .commission ∧
      (inMode .service).floor.mapState ≠ .checking ∧ notStanding (inMode .service).floor = [] ∧
      notStanding (inMode .commission).floor = [] ∧
      (run (.setMode 9 [2]) (inMode .service)).ctl.mode = .commission ∧
      (run (.setMode 9 [1]) (inMode .commission)).ctl.mode = .service ∧
      (run (.setMode 9 [2]) (inMode .config)).ctl.halt = false ∧
      approaching.ready = true ∧ notStanding approaching.floor = [] ∧
      (approaching.floor.carrier 3).map (fun c => c.place.map fun p => p.grantedAhead.map (·.cell)) =
        some (some [20, 11]) ∧
      (approaching.floor.cell 20).map (·.holders) = some [3] ∧
      ((run (.setMode 9 [0]) approaching).floor.cell 20).map (·.holders) = some [] := by decide +kernel

/-- A part in SERVICE one hold below the limit. -/
def lastHold : State := { inMode .service with ctl := { ctlOf .service with holdCount := 3 } }

/-- The carrier of section 4.7, moving at speed 1500. -/
def moving : State :=
  onFloor approaching fun f => f.modCarrier 3 fun c => c.modPlace fun p =>
    { p with last := ⟨10, 5000, 1500, false, 100000⟩ }

/-- What the halt shrink of section 4.7 finds: a granted reach, and cell 11 beyond the stopping distance; standing, the
same carrier gives up cells 20 and 11. -/
theorem witness_Shrunk :
    ∃ c pl d ql, moving.floor.carrier 3 = some c ∧ c.place = some pl ∧ c.state = .active ∧
      ReachGranted moving.floor pl ∧ haltAt moving.floor moving.params c pl = 1657 ∧
      beyondHalt moving.floor moving.params c pl = [⟨11, .a⟩] ∧
      approaching.floor.carrier 3 = some d ∧ d.place = some ql ∧ d.reportTimer = some ⟨99700, 300⟩ ∧
      ReachGranted approaching.floor ql ∧ beyondHalt approaching.floor approaching.params d ql =
        [⟨20, .w⟩, ⟨11, .a⟩] ∧ (moving.floor.cell 11).map (fun k => k.holders.count 3) = some 1 :=
  ⟨_, _, _, _, rfl, rfl, rfl, ⟨by decide +kernel, by decide +kernel, by decide +kernel, by decide +kernel⟩,
    by decide +kernel, by decide +kernel, rfl, rfl, rfl,
    ⟨by decide +kernel, by decide +kernel, by decide +kernel, by decide +kernel⟩, by decide +kernel,
    by decide +kernel⟩

theorem witness_HoldJudged :
    codeOf (.hold 9 [1]) (inMode .service) = some 7 ∧ codeOf (.hold 9 []) checking = some 2 ∧
      codeOf (.hold 9 []) (inMode .lockdown) = some 5 ∧ codeOf (.hold 9 []) (inMode .config) = some 3 ∧
      codeOf (.hold 9 []) (inMode .hold) = some 0 ∧
      (inMode .service).ctl.holdCount + 1 < (inMode .service).params.holdLimit ∧
      (run (.hold 9 []) (inMode .commission)).ctl.previous = .commission ∧
      lastHold.ready = true ∧ lastHold.params.holdLimit ≤ lastHold.ctl.holdCount + 1 ∧
      (run (.hold 9 []) lastHold).ctl.lockdownCause = .count ∧
      moving.ready = true ∧ moving.ctl.mode = .service ∧ moving.floor.mapState ≠ .checking ∧
      codeOf (.hold 9 []) moving = some 0 := by decide +kernel

/-- Carrier 6's case of section 9.10: HOLD with OVERRUN latched on carrier 3. -/
def heldByOverrun : State :=
  onFloor (inMode .hold) fun f => f.modCarrier 3 fun c =>
    { c with faults := [(2, ⟨99000, .overrun 10 5900 none, false⟩)] }

/-- HOLD with INTRUSION latched on cell 40, and with a gridlock record. -/
def heldByOthers : List State :=
  [onFloor (inMode .hold) fun f => f.modCell 40 fun c => { c with intrusion := some 99000 },
    onFloor (inMode .hold) fun f => { f with gridlocks := [⟨[3, 5], [⟨20, .ahead⟩, ⟨10, .holds⟩], 101000⟩] }].map
    fun s => { s with params := { s.params with intrusion := .haltAll, gridlock := .haltAll } }

theorem witness_ResumeJudged :
    codeOf (.resume 9 [1]) (inMode .hold) = some 7 ∧ codeOf (.resume 9 []) checking = some 2 ∧
      codeOf (.resume 9 []) (inMode .lockdown) = some 5 ∧ codeOf (.resume 9 []) (inMode .service) = some 3 ∧
      heldByOverrun.ready = true ∧ heldByOverrun.params.action 2 = .haltAll ∧
      (heldByOverrun.floor.carrier 3).map (fun c => c.faults.map (·.1)) = some [2] ∧
      codeOf (.resume 9 []) heldByOverrun = some 0x0D ∧
      contentOf (.resume 9 []) heldByOverrun = some [1, 1, 3, 1, 1, 2, 0, 0, 0, 0] ∧
      (∀ s ∈ heldByOthers, s.ready = true ∧ s.params.action 6 = .haltAll ∧ s.params.action 7 = .haltAll ∧
        codeOf (.resume 9 []) s = some 0x0D) ∧
      (∀ e ∈ (inMode .hold).floor.carriers, e.2.faults = []) ∧
      (∀ e ∈ (inMode .hold).floor.cells, e.2.intrusion = none) ∧ (inMode .hold).floor.gridlocks = [] ∧
      (inMode .hold).ctl.previous = .service ∧ (run (.resume 9 []) (inMode .hold)).ctl.mode = .service ∧
      (run (.resume 9 []) { inMode .hold with ctl := { ctlOf .hold with previous := .commission } }).ctl.mode =
        .commission := by decide +kernel

theorem witness_ClearHoldCountAnswers :
    lastHold.ready = true ∧ lastHold.floor.mapState ≠ .checking ∧ lastHold.ctl.mode ≠ .lockdown ∧
      contentOf (.clearHoldCount 9 []) lastHold = some [3] := by decide +kernel

theorem witness_ModeTimersExpire :
    (∀ s ∈ [inMode .service, lastHold, inMode .hold], s.ready = true ∧ s.ctl.linkTimer = .running ⟨99000, 1000⟩ ∧
      1000 ≤ elapsed s.clock.siteTime 99000) ∧
    (inMode .hold).ctl.recovery = some ⟨40000, 60000⟩ ∧ 60000 ≤ elapsed (inMode .hold).clock.siteTime 40000 ∧
    (run .linkSupervisionExpiry lastHold).ctl.mode = .lockdown ∧
    (run .linkSupervisionExpiry (inMode .hold)).ctl.causes = ⟨true, false, true⟩ := by decide +kernel

theorem witness_PowerAndClockEvents :
    let held := { State.reset with clock := ⟨true, true, 7⟩ }
    let late := atTime 40 State.reset
    let pin := { inMode .startup with clock := ⟨true, false, 10⟩, ctl := { ctlOf .startup with resetCause := .pin } }
    let last := atTime 4294967295 (inMode .service)
    held.clock.powered = true ∧ held.clock.resetHeld = true ∧ late.ctl.mode = .startup ∧
      late.ctl.resetCause = .powerOn ∧ (run .startupEnd late).ctl.mode = .config ∧
      (run .startupEnd (atTime 39 State.reset)).ctl.mode = .startup ∧ (run .startupEnd pin).ctl.mode = .config ∧
      last.clock.siteTime = 4294967295 ∧ (run .siteClockWrap last).clock.siteTime = 0 ∧
      (run .resetInputRelease held).clock.resetHeld = false ∧ (run .powerFailure last).clock.powered = false := by
  decide +kernel

theorem witness_PinAndRequestReset :
    let due := { inMode .service with link := { State.reset.link with resetDue := true } }
    (inMode .service).clock.powered = true ∧ due.clock.powered = true ∧ due.link.resetDue = true ∧
      (run .requestReset due).ctl.resetCause = .request ∧ (run .pinReset due).clock.resetHeld = true := by
  decide +kernel

theorem witness_SetParameterStores :
    (inMode .config).ready = true ∧ (inMode .config).floor.mapState ≠ .checking ∧
      (inMode .config).ctl.mode = .config ∧
      codeOf (.setParameter 9 (beBytes 1 1 ++ beBytes 4 0)) (inMode .config) = some 1 ∧
      codeOf (.setParameter 9 (beBytes 1 17 ++ beBytes 4 0)) (inMode .config) = some 0 ∧
      codeOf (.setParameter 9 (beBytes 1 18 ++ beBytes 4 2)) (inMode .service) = some 0 ∧
      codeOf (.setParameter 9 (beBytes 1 24 ++ beBytes 4 2)) (inMode .service) = some 0 ∧
      codeOf (.setParameter 9 (beBytes 1 25 ++ beBytes 4 0)) (inMode .service) = some 0 ∧
      codeOf (.setParameter 9 (beBytes 1 29 ++ beBytes 4 1)) (inMode .service) = some 0 := by decide +kernel

theorem witness_StopGapCutsRoutes :
    let write := fun v => run (.setParameter 9 (beBytes 1 7 ++ beBytes 4 v)) (inMode .config)
    StoresCanonical (inMode .config) ∧ (inMode .config).params.stopGap = 300 ∧
      ((write 2000).floor.carrier 3).map (fun c => (c.routeBroken, c.place.map fun p => p.ahead.map (·.cell))) =
        some (true, some [20, 11]) ∧
      (inMode .config).floor.stands 2000 1200 30 = false ∧ (inMode .config).floor.stands 2000 1200 11 = true ∧
      (write 2000).link.classes.route = ⟨false, false⟩ ∧
      ((write 400).floor.carrier 3).map (fun c => (c.routeBroken, c.place.map fun p => p.ahead.map (·.cell))) =
        some (false, some [20, 11, 30]) ∧
      (write 400).params.stopGap = 400 ∧ (write 400).link.classes.route = ⟨true, false⟩ ∧
      (write 4294967295).params.stopGap = 2000 ∧ (write 0).params.stopGap = 100 := by
  exact ⟨witness_StoresCanonical _, by decide +kernel⟩

/-- Define cell 20 of section 1.6. -/
def crossing20 : DefineCellFields :=
  ⟨20, 1, 2000, [none, some ⟨11, 0⟩, some ⟨40, 0⟩, some ⟨10, 0⟩], none, none, some 1000, none, none, none⟩

theorem witness_DefineCellStores :
    StoresCanonical (inMode .config) ∧ (inMode .config).ready = true ∧ (inMode .config).ctl.mode = .config ∧
      (inMode .config).floor.layoutLock = false ∧ parseDefineCell crossing20.bytes = some crossing20 ∧
      crossing20.badField = none ∧ ((inMode .config).floor.cell 20).map (·.holders) = some [] ∧
      codeOf (.defineCell 9 crossing20.bytes) (inMode .config) = some 0 ∧
      ((run (.defineCell 9 crossing20.bytes) (inMode .config)).floor.carrier 3).map
        (fun c => c.place.map fun p => p.ahead.map (·.cell)) = some (some []) ∧
      (run (.defineCell 9 crossing20.bytes) (inMode .config)).link.classes.route = ⟨false, false⟩ ∧
      (run (.defineCell 9 crossing20.bytes) (vacant .config)).link.classes.route = ⟨true, false⟩ := by
  exact ⟨witness_StoresCanonical _, by decide +kernel⟩

theorem witness_MapCheckBeginsAndEnds :
    let draft := onFloor (vacant .config) fun f => { f with mapState := .draft }
    let bad := onFloor (vacant .config) fun f => { f with mapState := .invalid }
    draft.ready = true ∧ bad.ready = true ∧ checking.ready = true ∧ draft.floor.mapState = .draft ∧
      bad.floor.mapState = .invalid ∧ codeOf (.commitMap 9 []) draft = some 0 ∧ codeOf (.commitMap 9 []) bad = some 0 ∧
      checking.floor.mapState = .checking ∧ (vacant .config).floor.mapState = .valid ∧
      codeOf (.lockLayout 9 []) (vacant .config) = some 0 := by decide +kernel

theorem witness_MapCheckMeaning :
    mapCheck (vacant .config).floor = none ∧
      mapCheck (firstSent 6).floor = some ⟨11, .convoyOverLength, none⟩ := by decide +kernel

/-- An amendment that closes a cell, one of its speed limit, and an empty one. -/
def closeCell (id : Nat) : AmendCellFields := ⟨id, some 1, none, none, none, none⟩

theorem witness_AmendCellOutcomes :
    let s := inMode .service
    let bytes := fun f : AmendCellFields => f.bytes
    s.ready = true ∧ s.ctl.mode ≠ .lockdown ∧ s.floor.mapState = .valid ∧
      (∀ f ∈ [closeCell 20, closeCell 10, ⟨20, none, none, none, none, none⟩],
        parseAmendCell (bytes f) = some f ∧ f.id < 384 ∧ ((s.floor.cell f.id).map f.badField) = some none) ∧
      ((s.floor.cell 20).map (·.holders), (s.floor.cell 10).map (·.holders)) = (some [], some [3]) ∧
      (contentOf (.amendCell 9 (bytes (closeCell 20))) s).map (·.take 1) = some [0] ∧
      (contentOf (.amendCell 9 (bytes (closeCell 10))) s).map (·.take 1) = some [1] ∧
      (contentOf (.amendCell 9 (bytes ⟨20, none, none, none, none, none⟩)) s).map (·.take 1) = some [2] := by
  decide +kernel

/-- Carrier 3 with another route from lane 10. -/
def rerouted (ahead : List Entry) (dest : Option Nat) : State :=
  onFloor (inMode .service) fun f => f.modCarrier 3 fun c => c.modPlace fun p => { p with ahead := ahead, dest := dest }

/-- The route that an amendment leaves carrier 3, with its route broken flag. -/
def routeAfter (a : AmendCellFields) (s : State) : Option (Bool × Option (List Nat)) :=
  ((run (.amendCell 9 a.bytes) s).floor.carrier 3).map fun c =>
    (c.routeBroken, c.place.map fun p => p.ahead.map (·.cell))

theorem witness_ClosingAmendmentForbids :
    let s := onFloor (inMode .service) fun _ => waitingFloor
    let slow : AmendCellFields := ⟨20, none, none, some 800, none, none⟩
    let keepClear : AmendCellFields := ⟨11, none, none, none, some 1, none⟩
    let oneWay (n : Nat) : AmendCellFields := ⟨11, none, some n, none, none, none⟩
    StoresCanonical s ∧ GridQuiet s ∧ s.ready = true ∧ s.floor.mapState = .valid ∧
      (s.floor.cell 20).map (fun c => (c.holders, (closeCell 20).badField c, c.waiting)) =
        some ([], none, [5, 3]) ∧
      ((run (.amendCell 9 (closeCell 20).bytes) s).floor.carrier 5).map
        (fun c => (c.passage, c.place.map fun p => p.ahead)) = some (none, some []) ∧
      ((run (.amendCell 9 slow.bytes) s).floor.carrier 5).map (fun c => c.passage.isSome) = some true ∧
      [closeCell 20, slow].map (fun a => (run (.amendCell 9 a.bytes) s).link.classes.route) =
        [⟨false, false⟩, ⟨true, false⟩] ∧
      [routeAfter slow s, routeAfter keepClear s, routeAfter (oneWay 0) s, routeAfter (oneWay 1) s,
        routeAfter keepClear (rerouted [⟨20, .w⟩, ⟨11, .a⟩] (some 4700)), routeAfter slow (rerouted [⟨20, .w⟩] none)] =
        [some (false, some [20, 11, 30]), some (false, some [20, 11, 30]), some (false, some [20, 11, 30]),
          some (true, some [20]), some (true, some [20]), some (false, some [20])] ∧
      [(closeCell 20, s), (oneWay 1, s), (closeCell 30, s), (slow, s)].map (fun x =>
        ((run (.amendCell 9 x.1.bytes) x.2).floor.carrier 3).map fun c => c.place.map (·.dest)) =
        [some (some (some 5700)), some (some none), some (some (some 4700)), some (some (some 2700))] ∧
      [slow, keepClear, oneWay 0, oneWay 1].map (fun a => parseAmendCell a.bytes) =
        [some slow, some keepClear, some (oneWay 0), some (oneWay 1)] ∧
      [slow, keepClear, oneWay 0, oneWay 1].map (fun a => (s.floor.cell a.id).map fun c => (a.badField c, c.holders)) =
        List.replicate 4 (some (none, [])) := by
  exact ⟨canonical_spec _ (by decide), fun _ => by decide, by decide +kernel⟩

/-- A state with filter_time 0 and an action of INTRUSION. -/
def unfiltered (a : Action) (s : State) : State := { s with params := { s.params with filterTime := 0, intrusion := a } }

/-- Dock 40 after a Detector report of a level. -/
def dockAfter (level : Nat) (s : State) : Option Cell :=
  (run (.detectorReport 9 (DetectorReportFields.bytes ⟨40, level⟩)) s).floor.cell 40

/-- Dock 40 unconfirmed and read OCC, with carrier 5 standing on it and filter_time 0. -/
def standingUnfiltered : State :=
  unfiltered .note (onFloor (inMode .service) fun f => f.modCell 40 fun c =>
    { c with raw := .occ, filtered := .occ, confirmed := false })

theorem witness_DetectorReportTaken :
    let s := dockAt .empty .empty none
    let f : DetectorReportFields := ⟨40, 1⟩
    let strict := unfiltered .haltAll s
    s.ready = true ∧ parseDetectorReport f.bytes = some f ∧ (s.floor.cell 40).map (·.detector) = some true ∧
      [1, 2].map (fun n => codeOf (.detectorReport 9 (DetectorReportFields.bytes ⟨40, n⟩)) s) = [some 0, some 0] ∧
      0 < s.params.filterTime ∧ GridQuiet strict ∧ GridQuiet standingUnfiltered := by
  exact ⟨by decide, by decide, by decide, by decide +kernel, by decide, fun _ => by decide, fun _ => by decide⟩

/-- R107, R108: with filter_time 0 a report acts on dock 40 as an expiry does, OCC, an equal level, and EMPTY. -/
theorem test_unfiltered_report_offers_the_level :
    let s := dockAt .empty .empty none
    let w : Timer := ⟨99900, 200⟩
    let standing := standingUnfiltered
    dockAfter 1 (unfiltered .note s) = (s.floor.cell 40).map (fun c =>
        { c with raw := .occ, filtered := .occ, intrusion := some 100000 }) ∧
      contentOf (.detectorReport 9 (DetectorReportFields.bytes ⟨40, 1⟩)) (unfiltered .note s) = some [1, 1, 1, 1] ∧
      dockAfter 2 (unfiltered .note (dockAt .occ .empty (some w))) = (s.floor.cell 40).map (fun c =>
        { c with filterTimer := some w }) ∧
      standing.floor.coverers 40 = [5] ∧
      dockAfter 1 (unfiltered .note (inMode .service)) = ((inMode .service).floor.cell 40).map (fun c =>
        { c with raw := .occ, filtered := .occ }) ∧
      dockAfter 2 standing = (standing.floor.cell 40).map (fun c =>
        { c with raw := .empty, filtered := .empty, absence := .running ⟨100000, 1000⟩, confirmed := true }) := by
  refine ⟨?_, ?_, ?_, ?_, ?_, ?_⟩ <;> decide +kernel

/-- R90, R93, R112: INTRUSION under HALT_ALL, by mode. -/
theorem test_unfiltered_intrusion_acts :
    let s := dockAt .empty .empty none
    let report := Instr.detectorReport 9 (DetectorReportFields.bytes ⟨40, 1⟩)
    let strict := unfiltered .haltAll s
    (run report strict).ctl = heldFrom s ⟨false, true, false⟩ s.ctl.linkTimer ∧
      (run report { strict with ctl := lastHold.ctl }).ctl.mode = .lockdown ∧
      (run report { strict with ctl := ctlOf .hold }).ctl.causes = ⟨false, true, true⟩ ∧
      (run report { strict with ctl := ctlOf .commission }).ctl = ctlOf .commission ∧
      (run report strict).link.classes.fault = ⟨false, false⟩ := by
  decide +kernel

/-- R106, R162 (entry 30): a cell without a detector is named before a bad level. -/
theorem test_detector_report_names_the_first_field :
    contentOf (.detectorReport 9 (DetectorReportFields.bytes ⟨20, 3⟩)) (inMode .service) = some [1] ∧
      contentOf (.detectorReport 9 (DetectorReportFields.bytes ⟨40, 3⟩)) (inMode .service) = some [2] := by
  decide +kernel

theorem witness_FilterTimerOffers :
    let w : Timer := ⟨99800, 200⟩
    let s := dockAt .occ .empty (some w)
    let strict := { s with params := { s.params with intrusion := .haltAll } }
    [dockAt .occ .occ (some w), s, dockAt .empty .occ (some w), strict].map (fun s => (s.ready,
      (s.floor.cell 40).map fun c => (c.filterTimer, c.sweepPending), w.due s.clock.siteTime)) =
      List.replicate 4 (true, some (some w, false), true) ∧
      ((run (.filterTimerExpiry 40) (dockAt .empty .occ (some w))).floor.cell 40).map
        (fun c => (c.filtered, c.confirmed)) = some (.empty, true) ∧
      (run (.filterTimerExpiry 40) s).ctl = s.ctl ∧
      (run (.filterTimerExpiry 40) strict).ctl = heldFrom s ⟨false, true, false⟩ s.ctl.linkTimer ∧
      (run (.filterTimerExpiry 40) { strict with ctl := lastHold.ctl }).ctl.mode = .lockdown ∧
      (run (.filterTimerExpiry 40) { strict with ctl := ctlOf .hold }).ctl.causes = ⟨false, true, true⟩ ∧
      (run (.filterTimerExpiry 40) { strict with ctl := ctlOf .commission }).ctl = ctlOf .commission ∧
      (run (.filterTimerExpiry 40) s).link.classes.fault = ⟨false, false⟩ := by decide +kernel

theorem witness_DeclareClearJudged :
    let doubt := onFloor (vacant .service) fun f => f.modCell 20 fun c => { c with confirmed := false }
    doubt.ready = true ∧ codeOf (.declareClear 9 []) doubt = some 7 ∧
      codeOf (.declareClear 9 (beBytes 2 20)) checking = some 2 ∧
      codeOf (.declareClear 9 (beBytes 2 20)) (inMode .lockdown) = some 5 ∧
      codeOf (.declareClear 9 (beBytes 2 384)) doubt = some 6 ∧ codeOf (.declareClear 9 (beBytes 2 383)) doubt = some 6 ∧
      codeOf (.declareClear 9 (beBytes 2 10)) (inMode .service) = some 0x0A ∧
      codeOf (.declareClear 9 (beBytes 2 40)) (dockAt .occ .occ none) = some 0x0A ∧
      codeOf (.declareClear 9 (beBytes 2 20)) (vacant .service) = some 0 ∧
      ((run (.declareClear 9 (beBytes 2 20)) doubt).floor.cell 20).map (·.confirmed) = some true ∧
      (doubt.floor.cell 20).map (fun c => (c.confirmed, c.sweepPending)) = some (false, false) := by decide +kernel

theorem witness_AbsenceRaisesMismatch :
    let w : Timer := ⟨99000, 1000⟩
    let at' := fun m a =>
      { onFloor (inMode m) fun f => f.modCell 40 fun c =>
          { c with absence := .running w, raw := .empty, filtered := .empty } with
        params := { State.reset.params with mismatch := a } }
    let state := fun s : State => (s.floor.carrier 5).map fun c => (c.state, c.haltedCause)
    let s := at' .service .note
    [s, at' .config .haltOne, at' .service .haltAll, at' .commission .haltAll].map (fun s => (s.ready,
      (s.floor.cell 40).map fun c => (c.absence, c.sweepPending), w.due s.clock.siteTime, s.floor.coverers 40)) =
      List.replicate 4 (true, some (.running w, false), true, [5]) ∧
      ((run (.absenceTimerExpiry 40) s).floor.carrier 5).map (·.faults) =
        some [(5, ⟨100000, .mismatch 40, false⟩)] ∧
      state (run (.absenceTimerExpiry 40) s) = some (.active, .none) ∧
      state (run (.absenceTimerExpiry 40) (at' .config .haltOne)) = some (.halted, .fault) ∧
      state (run (.absenceTimerExpiry 40) (at' .commission .haltAll)) = some (.active, .none) ∧
      state (run (.absenceTimerExpiry 40) (at' .service .haltAll)) = some (.halted, .fault) ∧
      (run (.absenceTimerExpiry 40) (at' .service .haltAll)).ctl.mode = .hold := by decide +kernel

theorem witness_EnrolStores :
    let s := vacant .config
    s.ready = true ∧ s.floor.mapState ≠ .checking ∧ s.ctl.mode ≠ .lockdown ∧ s.ctl.mode ≠ .hold ∧
      (∀ f ∈ [(⟨0, 400, 99, 100, 0⟩ : EnrolFields), ⟨47, 3000, 4001, 5000, 4⟩, ⟨47, 3000, 4000, 5000, 3⟩],
        parseEnrol f.bytes = some f ∧ f.slot < 48 ∧ s.floor.carrier f.slot = none) ∧
      codeOf (.enrol 9 (EnrolFields.bytes ⟨0, 400, 99, 100, 0⟩)) s = some 1 ∧
      codeOf (.enrol 9 (EnrolFields.bytes ⟨47, 3000, 4000, 5000, 3⟩)) s = some 0 := by decide +kernel

theorem witness_PlaceStands :
    let s := inMode .service
    let f : PlaceFields := ⟨7, 11, 0, 1200⟩
    StoresCanonical s ∧ GridQuiet s ∧ s.ready = true ∧ s.ctl.mode ≠ .lockdown ∧ s.ctl.mode ≠ .hold ∧
      s.floor.mapState = .valid ∧ parsePlace f.bytes = some f ∧
      (s.floor.carrier 7).map (·.state) = some .enrolled ∧
      (∃ k, s.floor.cell 11 = some k ∧ k.stands s.params.stopGap 1200 = true ∧ k.length = 5000 ∧
        k.live.closed = false ∧ k.intrusion = none ∧ k.holders = [] ∧ k.confirmed = true ∧
        k.live.lane.map (·.sense) = some .both) ∧
      [(Level.empty, Absence.idle), (.occ, .idle), (.occ, .spent)].map (fun x =>
        ((run (.place 9 f.bytes) (onFloor s fun f => f.modCell 11 fun c =>
          { c with detector := true, filtered := x.1, absence := x.2 })).floor.cell 11).map (·.absence)) =
        [some (.running ⟨100000, 1000⟩), some .idle, some (.running ⟨100000, 1000⟩)] ∧
      codeOf (.place 9 f.bytes) s = some 0 := by
  exact ⟨witness_StoresCanonical _, fun _ => by decide, by decide, by decide, by decide, by decide, by decide,
    by decide, ⟨_, rfl, by decide, by decide, by decide, by decide, by decide, by decide, by decide⟩, by decide +kernel, by decide +kernel⟩

/-- Set route of section 3.8 for carrier 5, and an extension of it. -/
def route5 : SetRouteFields := ⟨5, [40, 20, 10], 5000⟩

/-- An extension of carrier 5's route. -/
def extension5 : ExtendRouteFields := ⟨5, [10], some 5000⟩

/-- The entry list that a request's cells are validated to. -/
def validated (s : State) (slot : Nat) (cells : List Nat) (dest : Option Nat) : Option (List Nat) := do
  let c ← s.floor.carrier slot
  let pl ← c.place
  match validate s c pl cells dest with
  | .ok k => some (k.ahead.map (·.cell))
  | .error _ => none

/-- Carrier 5 in dock 40, having come in by end A, in a state. -/
def docked (state : CarrierState) : State :=
  onFloor (inMode .service) fun f => f.modCarrier 5 fun c =>
    { c.modPlace fun p => { p with head := ⟨40, .a⟩, offset := 2200, ahead := [], reach := ⟨40, 2200⟩ } with
      state := state }

theorem witness_RoutesReplaced :
    let s := inMode .service
    let short := onFloor s fun f => f.modCarrier 5 fun c => c.modPlace fun p => { p with ahead := [⟨20, .s⟩] }
    let waits := onFloor s fun _ => waitingFloor
    let other : SetRouteFields := ⟨5, [40, 20, 11], 4700⟩
    let cells := fun s : State => (s.floor.carrier 5).map fun c => c.passage.map fun p => (p.cells.map (·.cell), p.seq)
    GridQuiet s ∧ s.ready = true ∧ s.floor.mapState = .valid ∧ parseSetRoute route5.bytes = some route5 ∧
      (∀ n ∈ route5.cells, n < 384) ∧ validated s 5 route5.cells (some route5.dest) = some [20, 10] ∧
      codeOf (.setRoute 9 route5.bytes) s = some 0 ∧ parseExtendRoute extension5.bytes = some extension5 ∧
      validated short 5 [40, 20, 10] (some 5000) = some [20, 10] ∧
      codeOf (.extendRoute 9 extension5.bytes) short = some 0 ∧
      parseSetRoute other.bytes = some other ∧ codeOf (.setRoute 9 other.bytes) waits = some 0 ∧
      [waits, run (.setRoute 9 route5.bytes) waits, run (.setRoute 9 other.bytes) waits].map cells =
        [some (some ([20, 10], 6)), some (some ([20, 10], 6)), some (some ([20, 11], 8))] := by
  exact ⟨fun _ => by decide, by decide +kernel⟩

/-- R28: a Set route clears the route broken flag. -/
theorem test_set_route_clears_the_flags :
    let broken := onFloor (inMode .service) fun f => f.modCarrier 5 fun c => { c with routeBroken := true, stalled := true }
    ((run (.setRoute 9 route5.bytes) broken).floor.carrier 5).map (fun c => (c.routeBroken, c.stalled)) =
      some (false, false) := by decide +kernel

/-- R30: a turnaround in the dock reflects the head, 2200 in 2500 with length 1200 to 1500. -/
theorem witness_turnaround :
    [docked .active, docked .halted].map (fun t => validated t 5 route5.cells (some route5.dest)) =
        [some [20, 10], some [20, 10]] ∧
      carrierView (run (.setRoute 9 route5.bytes) (docked .halted)) 5 = some [3, 40, 1500, 1, 40, 1500, 0] ∧
      (carrierView (run (.setRoute 9 route5.bytes) (docked .active)) 5).map (·.take 3) = some [2, 40, 1500] := by
  decide +kernel

theorem witness_ValidatedRouteIsSound :
    validated (inMode .service) 3 [10, 20, 11, 30] (some 2700) = some [20, 11, 30] ∧
      validated (inMode .service) 3 [10, 20, 11] (some 4700) = some [20, 11] ∧
      validated (inMode .service) 3 [10, 20] (some 1500) = none := by decide +kernel

/-- R4, R5 on the map of section 1.6: crossing 20 entered from lane 10, with two links to one lane, and one-way lanes. -/
theorem test_step_answers :
    let f := smallFloor
    let oneWay := f.modCell 11 fun c => { c with live := { c.live with lane := some ⟨.bToA, false, 5⟩ } }
    let twice (c : Cell) : Cell := { c with links := [(.n, ⟨11, .b⟩), (.e, ⟨11, .a⟩), (.w, ⟨10, .a⟩)] }
    (f.cell 20).map (fun c => [30, 10, 11, 40].map (stepTest f c .w)) =
        some [.notLinked, .uTurn, .legal .a, .legal .a] ∧
      (f.cell 20).map (fun c => stepTest oneWay c .w 11) = some .senseForbidden ∧
      (f.cell 20).map (fun c => [stepTest f (twice c) .w 11, stepTest f (twice c) .n 11]) =
        some [.legal .b, .legal .a] ∧
      [10, 20, 11, 30, 40].map (f.stands 300 1200) = [true, false, true, true, true] ∧
      [10, 20, 11, 30, 40].map (f.stands 300 2400) = [true, false, true, true, false] := by decide +kernel

/-- Carrier 3 on lane 10 before crossing 20, both granted, the detectors of 10 and 20 in a state. -/
def sensed (filtered : Level) (behind ahead : Absence) : State :=
  onFloor approaching fun f => (f.modCell 10 fun c => { c with detector := true, absence := behind }).modCell 20 fun c =>
    { c with detector := true, filtered := filtered, absence := ahead }

/-- The absence timers of cells 10 and 20 after a Position report. -/
def absencesAfter (cell offset : Nat) (s : State) : List Absence :=
  [10, 20].filterMap fun id => ((run (report 3 cell offset 900 false) s).floor.cell id).map (·.absence)

/-- R114, R116: arrival in crossing 20 starts its timer on EMPTY alone, leaving lane 10 ends its timer. -/
theorem test_coverage_moves_the_timers :
    let old : Timer := ⟨99500, 1000⟩
    let new : Timer := ⟨100000, 1000⟩
    absencesAfter 20 900 (sensed .empty (.running old) .idle) = [.running old, .running new] ∧
      absencesAfter 20 900 (sensed .occ .spent .idle) = [.spent, .idle] ∧
      absencesAfter 20 900 (sensed .occ .idle .spent) = [.idle, .running new] ∧
      absencesAfter 20 900 (sensed .empty .idle (.running old)) = [.idle, .running old] ∧
      absencesAfter 20 1199 (sensed .occ .spent .idle) = [.spent, .idle] ∧
      absencesAfter 20 1200 (sensed .occ .spent .idle) = [.idle, .idle] ∧
      absencesAfter 10 5100 (sensed .empty .spent .idle) = [.spent, .idle] := by decide +kernel

theorem witness_PositionReport :
    let s := inMode .service
    let f : PositionFields := ⟨3, 10, 5900, 6000, false⟩
    let c := carrierAt ⟨20, .w⟩ 900 2 [⟨11, .a⟩, ⟨30, .a⟩] [⟨10, .b⟩] ⟨11, 4700⟩ 1000
    let on := oneCarrier s c [(10, some .bToA), (20, none), (11, some .aToB)]
    let lost := onFloor s fun f => f.modCarrier 3 fun c => { c with state := .lost, haltedCause := .lapse }
    let trail := fun s : State => (s.floor.carrier 3).map fun c => c.place.map fun p => p.trail.map (·.cell)
    s.ready = true ∧ s.floor.mapState ≠ .checking ∧ parsePosition f.bytes = some f ∧
      (s.floor.cell 10).map (·.length) = some 6000 ∧ (s.floor.carrier 3).map (·.state) = some .active ∧
      carrierView (run (report 3 10 5850 0 true) s) 3 = some [2, 10, 5850, 3, 11, 4700, 1000] ∧
      trail on = some (some [10]) ∧ trail (run (report 3 20 1299 900 false) on) = some (some [10]) ∧
      trail (run (report 3 20 1300 900 false) on) = some (some []) ∧
      trail (run (report 3 11 100 900 false) on) = some (some [20]) ∧
      (on.floor.cell 10).map (fun k => k.holders.count 3) = some 1 ∧
      (approaching.floor.carrier 3).map (fun c => c.place.map fun p => (p.head :: p.ahead).map (·.cell)) =
        some (some [10, 20, 11, 30]) ∧
      (approaching.floor.cell 20).map (·.holders) = some [3] ∧
      ((run (report 3 11 2000 900 false) approaching).floor.cell 20).map (·.holders) = some [] ∧
      ((run (report 3 10 5800 0 false) lost).floor.carrier 3).map (fun c => (c.state, c.haltedCause)) =
        some (.halted, .lapse) ∧
      ((run (report 3 10 5800 0 true) lost).floor.carrier 3).map (·.state) = some .active := by decide +kernel

/-- The numbers of the faults latched on carrier 3. -/
def latched3 (s : State) : Option (List Nat) := (s.floor.carrier 3).map fun c => c.faults.map (·.1)

/-- Each fault of a position report, at the boundary of its test and one beyond it. -/
theorem witness_PositionReportFaults :
    latched3 (run (report 3 10 5000 1580 false) approaching) = some [] ∧
      latched3 (run (report 3 10 5000 1581 false) approaching) = some [1] ∧
      latched3 (run (report 3 10 5850 0 true) (inMode .service)) = some [] ∧
      latched3 (run (report 3 10 5851 0 true) (inMode .service)) = some [2] ∧
      latched3 (run (report 3 10 5750 0 true) (inMode .service)) = some [] ∧
      latched3 (run (report 3 10 5749 0 true) (inMode .service)) = some [3] ∧
      latched3 (run (report 3 40 2000 0 true) (inMode .service)) = some [4] ∧
      latched3 (run (report 3 20 100 0 true) (inMode .service)) = some [2] := by decide +kernel

/-- The action of a fault by mode: OVERRUN, set to HALT_ALL, on the carrier and on the Mode Controller. -/
theorem witness_fault_action_by_mode :
    let halt := fun s : State => (s.floor.carrier 3).map fun c => (c.state, c.haltedCause)
    let beyond := report 3 10 5851 0 true
    (inMode .service).params.overrun = .haltAll ∧
      [Mode.config, .service, .commission, .hold].map (fun m => halt (run beyond (inMode m))) =
        [some (.halted, .fault), some (.halted, .fault), some (.active, .none), some (.active, .none)] ∧
      (run beyond (inMode .service)).ctl =
        heldFrom (inMode .service) ⟨false, true, false⟩ (inMode .service).ctl.linkTimer ∧
      (run beyond lastHold).ctl = lockedFrom lastHold ⟨false, true, false⟩ .count ∧
      (run beyond (inMode .hold)).ctl.causes = ⟨false, true, true⟩ ∧
      (run beyond (inMode .commission)).ctl = ctlOf .commission ∧
      halt (run (report 3 10 5000 1581 false) approaching) = some (.halted, .fault) ∧
      (run (report 3 10 5000 1581 false) approaching).ctl = approaching.ctl ∧
      (run beyond (inMode .service)).link.classes.fault = ⟨false, false⟩ := by decide +kernel

theorem witness_StandstillReturnsActive :
    let halted := fun m => onFloor (inMode m) fun f => f.modCarrier 3 fun c =>
      { c with state := .halted, haltedCause := .hold }
    GridQuiet (halted .service) ∧ (halted .service).ready = true ∧
      ((halted .service).floor.carrier 3).map (fun c => (c.state, c.faults)) = some (.halted, []) ∧
      ((run (report 3 10 5800 0 true) (halted .service)).floor.carrier 3).map (·.state) = some .active ∧
      ((run (report 3 10 5800 0 false) (halted .service)).floor.carrier 3).map (·.state) = some .halted ∧
      ((run (report 3 10 5800 0 true) (halted .hold)).floor.carrier 3).map (·.state) = some .halted := by
  exact ⟨fun _ => by decide, by decide +kernel⟩

/-- Carrier 3 behind carrier 5 in lane 10, with crossing 20 granted: covering the lane and not the crossing. -/
def sharedLane : State :=
  onFloor (inMode .service) fun f => { f with
    carriers := [(3, carrierAt ⟨10, .b⟩ 3000 2 [⟨20, .w⟩, ⟨11, .a⟩, ⟨30, .a⟩] [] ⟨20, 1700⟩ 0), (5, carrierOf 2 10 5800 [] 5700)]
    cells := tmod (tmod smallMap 10 fun k => { k with holders := [5, 3], lock := some .bToA, filtered := .occ }) 20
      fun k => { k with holders := [3], filtered := .empty } }

/-- What a Retire of slot 3 leaves cells 10 and 20: holders, confirmed, sweep-pending and filtered level. -/
def cellsAfterRetire (s : State) : List (List Nat × Bool × Bool × Level) :=
  [10, 20].filterMap fun id => ((run (.retire 9 [3]) s).floor.cell id).map fun k =>
    (k.holders, k.confirmed, k.sweepPending, k.filtered)

/-- Whether the hypotheses of a Retire of slot 3 hold, with the cells its body covers. -/
def mayRetire (s : State) : Option (Bool × List Nat) := do
  let c ← s.floor.carrier 3
  let p ← c.place
  return (s.ready && p.last.standstill && !hasFollower s.floor 3 p, p.covered s.floor c.profile.length)

theorem witness_RetireEmptiesSlot :
    let s := inMode .service
    let behind := onFloor sharedLane fun f => f.modCell 20 fun k => { k with sweepPending := true }
    parseByte [3] = some 3 ∧ codeOf (.retire 9 [3]) s = some 0 ∧ codeOf (.retire 9 [7]) s = some 0 ∧
      [s, sharedLane, behind].map mayRetire = List.replicate 3 (some (true, [10])) ∧ GridQuiet sharedLane ∧
      (cellsAfterRetire s).take 1 = [([], false, false, .unknown)] ∧
      cellsAfterRetire sharedLane = [([5], true, true, .occ), ([], true, false, .empty)] ∧
      cellsAfterRetire behind = [([5], true, true, .occ), ([], false, false, .unknown)] ∧
      ((run (.retire 9 [3]) (onFloor sharedLane fun f => f.modCell 10 fun k => { k with absence := .spent })).floor.cell
        10).map (·.absence) = some .spent := by
  exact ⟨by decide, by decide +kernel, by decide +kernel, by decide +kernel, fun _ => by decide, by decide +kernel⟩

theorem witness_ReportTimerLoses :
    let s := inMode .service
    let strict := fun m => { inMode m with params := { s.params with lapse := .haltAll } }
    s.ready = true ∧ (s.floor.carrier 3).map (fun c => (c.state, c.reportTimer)) =
      some (.active, some ⟨99700, 300⟩) ∧ 300 ≤ elapsed s.clock.siteTime 99700 ∧
      ((run (.reportTimerExpiry 3) s).floor.carrier 3).map (fun c => (c.state, c.faults)) =
        some (.lost, [(0, ⟨100000, .lapse 99700, false⟩)]) ∧
      carrierView (run (.reportTimerExpiry 3) approaching) 3 = some [4, 10, 5000, 1, 10, 5250, 0] ∧
      (run (.reportTimerExpiry 3) s).ctl = s.ctl ∧
      (run (.reportTimerExpiry 3) (strict .service)).ctl.mode = .hold ∧
      (run (.reportTimerExpiry 3) { strict .service with ctl := lastHold.ctl }).ctl.mode = .lockdown ∧
      (run (.reportTimerExpiry 3) (strict .hold)).ctl.causes = ⟨false, true, true⟩ := by decide +kernel

theorem witness_ClearFaultsUnlatches :
    let s := heldByOverrun
    let blocked := onFloor (inMode .service) fun f => f.modCell 40 fun c =>
      { c with intrusion := some 1, filtered := .empty }
    StoresCanonical s ∧ StoresCanonical blocked ∧ s.ready = true ∧ s.floor.mapState ≠ .checking ∧
      s.ctl.mode ≠ .lockdown ∧ latched3 s = some [2] ∧ latched3 (run (.clearFaults 9 [0, 3]) s) = some [] ∧
      latched3 (run (.clearFaults 9 [2]) s) = some [] ∧
      (s.floor.carrier 7).map (fun c => (c.state, c.faults)) = some (.enrolled, []) ∧ s.floor.carrier 47 = none ∧
      [7, 47].map (fun n => (codeOf (.clearFaults 9 [0, n]) s, contentOf (.clearFaults 9 [0, n]) s)) =
        List.replicate 2 (some 0, some [0, 0]) ∧
      ((run (.clearFaults 9 (1 :: beBytes 2 40)) blocked).floor.cell 40).map (·.intrusion) = some none := by
  exact ⟨canonical_spec _ (by decide), canonical_spec _ (by decide), by decide +kernel⟩

theorem witness_PassageTimersAct :
    let s := atTime 220000 (onFloor (inMode .service) fun _ => { waitingFloor with
      carriers := tmod waitingFloor.carriers 5 fun c =>
        { c with passage := c.passage.map fun p => { p with promotePeriod := some 60000 } } })
    let top := onFloor s fun f => f.modCarrier 5 fun c =>
      { c with passage := c.passage.map fun p => { p with priority := 3 } }
    s.ready = true ∧ (s.floor.carrier 5).map (fun c => c.passage.map fun p =>
        (p.waitPeriod, p.promotePeriod, p.priority, p.queued)) = some (some (120000, some 60000, 2, 100000)) ∧
      120000 ≤ elapsed s.clock.siteTime 100000 ∧ GridQuiet s ∧
      ((run (.promotion 5) s).floor.carrier 5).map (fun c => c.passage.map fun p => (p.priority, p.promotePeriod)) =
        some (some (3, none)) ∧
      ((run (.promotion 5) top).floor.carrier 5).map (fun c => c.passage.map fun p => (p.priority, p.promotePeriod)) =
        some (some (3, none)) := by
  exact ⟨by decide, by decide, by decide, fun _ => by decide, by decide +kernel⟩

theorem witness_GrantConditions :
    let p3 := passageOf [⟨20, .w⟩, ⟨11, .a⟩] 7 1 101000
    let first := waitingFloor.modCell 20 fun c => { c with waiting := [3] }
    canGrant first 3 p3 = true ∧ canGrant waitingFloor 3 p3 = false ∧
      (examineCell 20 ⟨first, noneGathered⟩).fl = grantFloor 3 p3 first ∧
      (examineCell 20 ⟨first, { noneGathered with barred := [3] }⟩).fl = first ∧
      (examineCell 20 ⟨waitingFloor, noneGathered⟩).fl = waitingFloor := by decide +kernel

theorem witness_GrantIsWhole :
    (waitingFloor.carrier 3).map (fun c => (c.place.isSome, c.passage)) =
        some (true, some (passageOf [⟨20, .w⟩, ⟨11, .a⟩] 7 1 101000)) ∧
      ([(⟨20, .w⟩ : Entry), ⟨11, .a⟩].map (·.cell)).Nodup ∧
      waitingFloor.waitingPassage 7 = none ∧ (waitingFloor.waitingPassage 5).isSome = true ∧
      (withdraw 5 ⟨waitingFloor, noneGathered⟩).fl.gridlocks = [] := by decide +kernel

/-- Lane 11 after carrier 3 is released from it: its holders, lock, closed mark and confirmation. -/
def released (holders : List Nat) (a : Option Amendment) (sweep : Bool) :
    Option (List Nat × Option Direction × Bool × Bool) :=
  let f := waitingFloor.modCell 11 fun c =>
    { c with holders := holders, lock := some .aToB, amendment := a, sweepPending := sweep }
  ((release ⟨100000, defaultParams, .service⟩ 3 11 ⟨f, noneGathered⟩).fl.cell 11).map fun c =>
    (c.holders, c.lock, c.live.closed, c.confirmed)

/-- A release that finds the carrier absent, leaves a holder, leaves none, sweeps, and applies an amendment. -/
theorem witness_release :
    let closed : Amendment := ⟨some true, none, none, none, none⟩
    [released [5] none false, released [3, 5] (some closed) true, released [3] none false, released [3] none true,
      released [3] (some closed) true] =
      [some ([5], some .aToB, false, true), some ([5], some .aToB, false, true), some ([], none, false, true),
        some ([], none, false, false), some ([], none, true, false)] := by decide +kernel

/-- Nine crossings with a bay at the end: no stand place among the first eight entries. -/
def farBay : Floor :=
  let ids := [100, 101, 102, 103, 104, 105, 106, 107]
  { emptyFloor with
    cells := (50, cellOf .bay 3000 [] ⟨false, 4000, none⟩ false) ::
      ids.map (fun id => (id, cellOf .crossing 2000 [] ⟨false, 4000, none⟩ false)) ++
      [(108, cellOf .bay 3000 [] ⟨false, 4000, none⟩ false)]
    carriers := [(3, carrierOf 1 50 2900 ((ids ++ [108]).map fun id => ⟨id, .w⟩) 2700)] }

/-- A formation attempt: whether it may form, the length of what it makes, and the carrier's passage, queue refused
and route broken flags after it. -/
def attempt (f : Floor) (slot : Nat) : Option (Bool × Option Nat × Bool × Bool × Bool) := do
  let ctx : Ctx := ⟨100000, defaultParams, .service⟩
  let c ← f.carrier slot
  let pl ← c.place
  let d ← (form ctx slot ⟨f, noneGathered⟩).fl.carrier slot
  return (mayForm ctx f slot c pl, (passageEntries defaultParams f c.profile.length pl.ungranted).map (·.length),
    d.passage.isSome, d.queueRefused, d.routeBroken)

/-- Formation at carrier 5 of section 3.8: queued, refused by a full list, and none made where no stand place is
near; and no attempt for a carrier whose passage waits. -/
theorem witness_WaitingListOrder :
    let full := smallFloor.modCell 20 fun c => { c with waiting := [11, 12, 13, 14, 15, 16, 17, 18] }
    (waitingFloor.carrier 3).bind (·.passage) = some (passageOf [⟨20, .w⟩, ⟨11, .a⟩] 7 1 101000) ∧
      (∀ x ∈ [5], (waitingFloor.waitingPassage x).isSome = true) ∧
      insertWaiting waitingFloor 3 (passageOf [⟨20, .w⟩, ⟨11, .a⟩] 7 1 101000) [5] = [5, 3] ∧
      [attempt smallFloor 5, attempt full 5, attempt farBay 3, attempt waitingFloor 5] =
        [some (true, some 2, true, false, false), some (true, some 2, false, true, false),
          some (true, none, false, false, true), some (false, some 2, true, false, false)] := by decide +kernel

/-- An event in SERVICE that has examined crossing 20, where the ring of section 3.8 stands. -/
def closing (a : Action) (count : Nat) : Event :=
  let s := onFloor (inMode .service) fun _ => { waitingFloor with gridlocks := [] }
  { Event.start { s with
      params := { s.params with gridlock := a }
      ctl := { s.ctl with holdCount := count } } with acc := { noneGathered with examined := [20] } }

theorem witness_GridlockRingsAreRings :
    let ring := [(3, (⟨20, .ahead⟩ : GridLink)), (5, ⟨10, .holds⟩)]
    searchRing waitingFloor 3 = some ring ∧
      Relation.TransGen (fun a b => ∃ link, (b, link) ∈ blockers waitingFloor a) 3 3 ∧
      (recordRing 7 ring { waitingFloor with gridlocks := [] } ⟨[], false⟩).1.gridlocks =
        [⟨[3, 5], [⟨20, .ahead⟩, ⟨10, .holds⟩], 7⟩] ∧
      recordRing 7 ring waitingFloor ⟨[], false⟩ = (waitingFloor, ⟨[], false⟩) ∧
      (recordRing 7 ring { waitingFloor with gridlocks := List.replicate 4 ⟨[1, 2], [], 0⟩ }
        ⟨[], false⟩).1.gridOverflow = true ∧
      (∀ r ∈ List.replicate 4 (⟨[1, 2], [], 0⟩ : GridRecord), ¬ ((3 ∈ r.members) ↔ 3 ∈ [3, 5])) ∧
      handed waitingFloor [20, 11] = [3, 5] ∧
      handed (closing .note 0).s.floor (closing .note 0).acc.examined = [] ++ 3 :: [5] ∧
      searchRing (closing .note 0).s.floor 3 = some ring ∧
      (closeGridlock (closing .note 0)).notices.grid = some [3, 5] ∧
      (closeGridlock (closing .note 0)).s.ctl.mode = .service ∧
      (closeGridlock (closing .haltAll 0)).s.ctl.mode = .hold ∧
      (closeGridlock (closing .haltAll 3)).s.ctl.lockdownCause = .count ∧
      searchRing smallFloor 3 = none := by
  refine ⟨by decide +kernel, .tail (.single (b := 5) ⟨⟨20, .ahead⟩, by decide +kernel⟩) ⟨⟨10, .holds⟩, by decide +kernel⟩,
    by decide +kernel⟩

/-- Sections 2.9 and 7.5: the whole route granted with its destination ahead, with it behind the head, and the end of
the granted prefix. -/
theorem witness_GrantBoundWorked :
    let floor := (vacant .service).floor
    let pl := fun (h : Entry) o ahead g d => (⟨h, o, ⟨10, 0, 0, true, 0⟩, ahead, d, g, [], ⟨h.cell, o⟩⟩ : Placement)
    (pl ⟨10, .b⟩ 5800 [⟨20, .w⟩, ⟨40, .a⟩] 3 (some 2200)).grantBound floor defaultParams = 4400 ∧
      (pl ⟨40, .b⟩ 2400 [] 1 (some 2200)).grantBound floor defaultParams = 0 ∧
      (pl ⟨10, .b⟩ 5000 [⟨20, .w⟩, ⟨11, .a⟩, ⟨30, .a⟩] 3 (some 2700)).grantBound floor defaultParams = 7700 ∧
      (pl ⟨30, .b⟩ 2900 [] 1 none).grantBound floor defaultParams = 0 := by decide +kernel

theorem witness_CeilingIsLeastTerm :
    ∃ c pl, approaching.floor.carrier 3 = some c ∧ c.place = some pl ∧ c.state = .active ∧
      c.ceilingAt approaching.floor defaultParams .service pl 7700 = 1480 ∧
      c.ceilingAt approaching.floor defaultParams .hold pl 7700 = 0 ∧
      pl.pointAt approaching.floor 1000 = ⟨10, 6000⟩ ∧ pl.pointAt approaching.floor 1001 = ⟨20, 1⟩ ∧
      pl.pointAt approaching.floor 3000 = ⟨20, 2000⟩ ∧ pl.pointAt approaching.floor 7700 = ⟨11, 4700⟩ := by
  refine ⟨carrierAt ⟨10, .b⟩ 5000 3 [⟨20, .w⟩, ⟨11, .a⟩, ⟨30, .a⟩] [] ⟨11, 4700⟩ 1480, _, rfl, rfl, ?_⟩
  decide +kernel

theorem witness_EndTermIsRoot : 250 ≤ defaultParams.reactionMargin ∧ endTerm defaultParams 800 250 = 0 := by
  decide +kernel

theorem witness_BrakingDistances :
    0 < 800 ∧ 250 ≤ defaultParams.reactionMargin ∧ brakingTerm defaultParams 800 1000 250 = 1000 ∧
      ParamsInRange defaultParams ∧ stoppingDistance defaultParams 100 6000 = 180250 := by
  exact ⟨by decide, by decide, by decide +kernel, witness_ParamsInRange, by decide +kernel⟩

theorem witness_PayloadsReadBack :
    parseNone [] = some () ∧ parseByte [0xFF] = some 255 ∧ parseByte (beBytes 1 255) = some 255 ∧
      parseCellId [0x01, 0x7F] = some 383 ∧ parseCellId (beBytes 2 65535) = some 65535 ∧
      parseSetParameter (SetParameterFields.bytes ⟨255, 4294967295⟩) = some ⟨255, 4294967295⟩ ∧
      crossing20.links.length = 4 ∧ parseDefineCell crossing20.bytes = some crossing20 ∧
      parseAmendCell (closeCell 65535).bytes = some (closeCell 65535) ∧
      parseExtendRoute (ExtendRouteFields.bytes ⟨255, List.replicate 31 65535, some 65535⟩) =
        some ⟨255, List.replicate 31 65535, some 65535⟩ ∧
      parseSetRoute route5.bytes = some route5 ∧
      parsePosition (PositionFields.bytes ⟨255, 65535, 65535, 65535, true⟩) = some ⟨255, 65535, 65535, 65535, true⟩ := by
  decide +kernel

/-- R165 (entry 29): a presence byte other than 0 and 1 is BAD_LENGTH. -/
theorem test_presence_byte_two : parseAmendCell [0, 20, 2, 0, 0, 0, 0] = none := by decide

/-- The words of other families: Position report of R166 byte by byte, Set parameter of R168. -/
theorem test_payload_layouts :
    parsePosition [0x03, 0x01, 0x7F, 0x03, 0xC3, 0x05, 0x14, 0xFF] = some ⟨3, 383, 963, 1300, true⟩ ∧
      parseSetParameter [0x07, 0x00, 0x00, 0x01, 0x90] = some ⟨7, 400⟩ ∧
      parseSetRoute [0x05, 0x02, 0x00, 0x28, 0x00, 0x14, 0x03, 0xE8] = some ⟨5, [40, 20], 1000⟩ := by decide
end Sys2Proof.Tests
end

section
/-! PROOFS. The grant bound (R68) and the end term (R76), over the rules of the two operations they are built from:
the length of a list of entries and the integer square root. -/

namespace Sys2Proof.Machine

/-! ## The integer square root (Introduction) -/

/-- The search for the bits below `k` keeps `r` a lower bound and `r + 2 ^ k` a strict upper bound of the root, so
that it ends at the root. -/
theorem isqrtGo_isRoot {n k r : Nat} (lower : r * r ≤ n) (upper : n < (r + 2 ^ k) * (r + 2 ^ k)) :
    IsRoot n (isqrtGo n k r) := by
  induction k generalizing r with
  | zero => exact ⟨lower, by simpa [isqrtGo] using upper⟩
  | succ k ih =>
    rw [isqrtGo]
    split
    case isTrue fits =>
      have halves : r + 2 ^ k + 2 ^ k = r + 2 ^ (k + 1) := by omega
      exact ih fits (by rwa [halves])
    case isFalse exceeds => exact ih lower (Nat.lt_of_not_le exceeds)

theorem isqrt_isRoot (n : Nat) : IsRoot n (isqrt n) := by
  refine isqrtGo_isRoot (Nat.zero_le n) ?_
  calc n < 2 ^ (n.log2 + 1) := Nat.lt_log2_self
    _ ≤ 2 ^ (n.log2 / 2 + 1 + (n.log2 / 2 + 1)) := Nat.pow_le_pow_right (by decide) (by omega)
    _ = (0 + 2 ^ (n.log2 / 2 + 1)) * (0 + 2 ^ (n.log2 / 2 + 1)) := by rw [Nat.zero_add, ← Nat.pow_add]

theorem IsRoot.eq_zero {r : Nat} (h : IsRoot 0 r) : r = 0 :=
  mul_self_eq_zero.mp (Nat.le_zero.mp h.1)

/-! ## The end term (R73, R76) -/

theorem endTerm_isRoot (p : Params) (decel d : Nat) :
    IsRoot (2 * decel * (min d 200000 - p.reactionMargin)) (endTerm p decel d) :=
  isqrt_isRoot _

theorem brakingRoom_eq_zero {p : Params} {d : Nat} (within : d ≤ p.reactionMargin) : brakingRoom p d = 0 :=
  Nat.sub_eq_zero_of_le (Nat.le_trans (Nat.min_le_left ..) within)

/-- Settles O58: the bits of a square root end at the root (`isqrt_isRoot`), and within reaction_margin there is no
braking room. -/
theorem endTermIsRoot : Obligations.EndTermIsRoot := by
  intro p decel d
  refine ⟨endTerm_isRoot p decel d, fun within => ?_⟩
  rw [endTerm, brakingRoom_eq_zero within, Nat.mul_zero]
  exact (isqrt_isRoot 0).eq_zero

/-! ## The length of a list of entries (R67) -/

theorem lenSum_eq_sum (f : Floor) (l : List Entry) : f.lenSum l = (l.map fun e => f.len e.cell).sum := by
  rw [Floor.lenSum, List.sum_eq_foldl, List.foldl_map]

theorem lenSum_dropLast_add (f : Floor) {l : List Entry} (nonempty : l ≠ []) (e : Entry) :
    f.lenSum l = f.lenSum l.dropLast + f.len (l.getLastD e).cell := by
  conv_lhs => rw [← List.dropLast_concat_getLast nonempty]
  simp [lenSum_eq_sum, List.getLastD_eq_getLast?, List.getLast?_eq_some_getLast nonempty]

theorem grantedEnd_eq_sum (f : Floor) (pl : Placement) :
    pl.grantedEnd f = f.len pl.head.cell - pl.offset +
      ((pl.ahead.take (pl.granted - 1)).map fun e => f.len e.cell).sum :=
  congrArg (pl.headLeft f + ·) (lenSum_eq_sum f pl.grantedAhead)

/-! ## The grant bound (R68) -/

theorem grantBound_of_headCell {f : Floor} {p : Params} {pl : Placement} {d : Nat} (whole : pl.ungranted = [])
    (dest : pl.dest = some d) (inHead : pl.grantedAhead = []) : pl.grantBound f p = d - pl.offset := by
  simp [Placement.grantBound, whole, dest, inHead]

/-- The near boundary of the last cell is the far boundary of the granted entries before it. -/
theorem grantBound_of_lastCell {f : Floor} {p : Params} {pl : Placement} {d : Nat} (whole : pl.ungranted = [])
    (dest : pl.dest = some d) (ahead : pl.grantedAhead ≠ []) :
    pl.grantBound f p = pl.headLeft f + f.lenSum pl.grantedAhead.dropLast + d := by
  have lastSplit := lenSum_dropLast_add f ahead pl.head
  simp only [Placement.grantBound, whole, dest, ahead, ↓reduceIte, Placement.grantedEnd, Placement.lastGranted]
  omega

theorem grantBound_of_grantedEnd {f : Floor} {p : Params} {pl : Placement}
    (other : pl.ungranted ≠ [] ∨ pl.dest = none) : pl.grantBound f p = pl.grantedEnd f - p.stopGap := by
  unfold Placement.grantBound
  split
  case h_1 d whole dest => simp [whole, dest] at other
  case h_2 => rfl

/-- Settles O56, by the three cases of R68: the destination in the head cell, the destination in a later cell, and no
destination to go by. -/
theorem grantBoundWorked : Obligations.GrantBoundWorked := by
  intro f p pl
  refine ⟨fun d whole dest => ?_, fun other => ?_⟩
  · split
    case isTrue inHead =>
      rw [grantBound_of_headCell whole dest inHead]
      split <;> omega
    case isFalse ahead =>
      rw [grantBound_of_lastCell whole dest ahead, lenSum_eq_sum]
      rfl
  · intro farBoundary
    have bound : pl.grantBound f p = farBoundary - p.stopGap := by
      rw [grantBound_of_grantedEnd other, grantedEnd_eq_sum]
    split <;> omega

end Sys2Proof.Machine
end

section
/-! PROOFS. The summary status byte (R161): the sum that builds it has each field at its own bits, and the byte stands
first in every reply and every notice. -/

namespace Sys2Proof.Machine

/-! ## The fields of the sum -/

theorem boolNum_le_one (b : Bool) : boolNum b ≤ 1 := by
  cases b <;> decide

theorem decide_boolNum_eq_one (b : Bool) : decide (boolNum b = 1) = b := by
  cases b <;> rfl

theorem Mode.num_lt_eight (m : Mode) : m.num < 8 := by
  cases m <;> decide

/-- The number that the summary status byte carries. -/
def summaryNum (s : State) : Nat :=
  s.ctl.mode.num + 8 * boolNum (anyLatched s.floor) + 16 * boolNum s.ctl.halt
    + 32 * boolNum s.link.classes.withheld + 64 * boolNum s.link.rxOverflow
    + 128 * boolNum (s.floor.mapState = .valid)

theorem summary_eq_ofNat (s : State) : summary s = BitVec.ofNat 8 (summaryNum s) := rfl

/-- No field of the sum carries into the next: the mode is its rest by 8, and each flag is the bit of its weight. -/
theorem summaryNum_fields (s : State) :
    summaryNum s % 8 = s.ctl.mode.num ∧
    summaryNum s / 2 ^ 3 % 2 = boolNum (anyLatched s.floor) ∧
    summaryNum s / 2 ^ 4 % 2 = boolNum s.ctl.halt ∧
    summaryNum s / 2 ^ 5 % 2 = boolNum s.link.classes.withheld ∧
    summaryNum s / 2 ^ 6 % 2 = boolNum s.link.rxOverflow ∧
    summaryNum s / 2 ^ 7 % 2 = boolNum (s.floor.mapState = .valid) := by
  have mode := s.ctl.mode.num_lt_eight
  have latched := boolNum_le_one (anyLatched s.floor)
  have halt := boolNum_le_one s.ctl.halt
  have withheld := boolNum_le_one s.link.classes.withheld
  have overflow := boolNum_le_one s.link.rxOverflow
  have valid := boolNum_le_one (s.floor.mapState = .valid)
  unfold summaryNum
  omega

theorem summary_mode (s : State) : ((summary s).extractLsb' 0 3).toNat = summaryNum s % 8 := by
  rw [summary_eq_ofNat, BitVec.extractLsb'_toNat, BitVec.toNat_ofNat, Nat.shiftRight_zero]
  exact Nat.mod_mod_of_dvd _ (by decide)

/-- A bit of the summary status byte is the flag that the sum has there. -/
theorem summary_getLsbD {s : State} {k : Nat} {flag : Bool} (inByte : k < 8)
    (field : summaryNum s / 2 ^ k % 2 = boolNum flag) : (summary s).getLsbD k = flag := by
  rw [summary_eq_ofNat, BitVec.getLsbD_ofNat, Nat.testBit_eq_decide_div_mod_eq, field, decide_boolNum_eq_one,
    decide_eq_true inByte, Bool.true_and]

/-! ## What the flags say -/

/-- The any latched fault flag (R88). -/
theorem anyLatched_iff (f : Floor) : anyLatched f = true ↔
    (∃ e ∈ f.carriers, e.2.faults ≠ []) ∨ (∃ e ∈ f.cells, e.2.intrusion ≠ none) ∨ f.gridlocks ≠ [] := by
  simp [anyLatched, or_assoc, Option.isSome_iff_ne_none]

theorem withheld_iff (c : NoticeClasses) : c.withheld = true ↔
    c.fault.withheld = true ∨ c.mode.withheld = true ∨ c.gridlock.withheld = true ∨ c.route.withheld = true := by
  simp [NoticeClasses.withheld, or_assoc]

/-! ## The place of the byte -/

theorem sendReply_leads_with_summary (s : State) (tag kind : Byte) (code : Code) (content : List Item) (exec : Bool) :
    ∃ f, f.payload.head? = some (summary s) ∧
      outgoing (sendReply tag kind code content exec s).link = outgoing s.link ++ [f] :=
  ⟨⟨tag, kind ||| 0x80#8, summary s :: BitVec.ofNat 8 code.num :: replyContent content, exec⟩, rfl,
    outgoing_putFrame _ { s.link with rxOverflow := false }⟩

theorem sendNotice_leads_with_summary (s : State) (k : NoticeKind) :
    ∃ f, f.payload.head? = some (summary s) ∧ outgoing (sendNotice s k).link = outgoing s.link ++ [f] :=
  ⟨noticeFrame s k, rfl, outgoing_putFrame _ s.link⟩

/-- Settles O18: each field is read off the sum that builds the byte (`summaryNum_fields`), and a reply and a notice
each put one frame behind those on their way, led by the byte of the state they are built from. -/
theorem summaryByteFields : Obligations.SummaryByteFields := by
  refine ⟨fun s => ?_, sendReply_leads_with_summary, sendNotice_leads_with_summary⟩
  obtain ⟨mode, latched, halt, withheld, overflow, valid⟩ := summaryNum_fields s
  refine ⟨?mode, ?latched, ?halt, ?withheld, ?overflow, ?valid⟩
  case mode =>
    rw [summary_mode, mode]
    cases s.ctl.mode <;> rfl
  case latched => rw [summary_getLsbD (by decide) latched, anyLatched_iff]
  case halt => rw [summary_getLsbD (by decide) halt]
  case withheld => rw [summary_getLsbD (by decide) withheld, withheld_iff]
  case overflow => rw [summary_getLsbD (by decide) overflow]
  case valid => rw [summary_getLsbD (by decide) valid, decide_eq_true_iff]

end Sys2Proof.Machine
end
